-- ==== Sys2Proof/Word.lean ====
section
/-! DEFINITION. The value types of the block: bytes, register words, command words and the five-byte frame. -/

namespace Sys2Proof

/-- A frame byte: bit 0 is its least significant bit (00_scope.md R14). -/
abbrev Byte := BitVec 8

/-- A value of the host's register read port (10_state.md R55). -/
abbrev Word := BitVec 32

/-- A command word as the host presents it, whole, on the command port (30_encoding.md R80). -/
abbrev CommandWord := BitVec 40

/-- A write frame or a read frame: five bytes in transmission order (00_scope.md R7 and R14, 20_memory.md R60 and R63). -/
structure Frame where
  b0 : Byte
  b1 : Byte
  b2 : Byte
  b3 : Byte
  b4 : Byte
deriving DecidableEq, Repr, Inhabited

end Sys2Proof
end

