-- ==== Sys2Proof/Config.lean ====
section
/-! DEFINITION. The types of the configuration register's fields, the parameters that are fixed for a run
(00_scope.md R7 to R12), and the free values that stand for the environment's answers (20_memory.md R66). -/

namespace Sys2Proof

/-- CFG.BAND (10_state.md R34). -/
inductive Band where
  | usEu
  | japan
deriving DecidableEq, Repr

/-- CFG.MUTE, the exclusive mute selector (10_state.md R36). -/
inductive MuteSel where
  | none
  | left
  | right
  | both
deriving DecidableEq, Repr

/-- CFG.SEARCH_DIR (10_state.md R39). -/
inductive SearchDir where
  | down
  | up
deriving DecidableEq, Repr

/-- CFG.SEARCH_THR: the three thresholds; code 0 is never held (10_state.md R40; assumption log 7). -/
inductive SearchThr where
  | tlow
  | tmid
  | thigh
deriving DecidableEq, Repr

/-- CFG.INJ, the LO injection side (10_state.md R41). -/
inductive Injection where
  | low
  | high
deriving DecidableEq, Repr

/-- CFG.SOUND (10_state.md R42). -/
inductive Sound where
  | stereo
  | mono
deriving DecidableEq, Repr

/-- CFG.CLK: the three reference-clock options; code 3 is never held (10_state.md R45; assumption log 7). -/
inductive Clock where
  | xtal32k
  | clk13m
  | clk6m5
deriving DecidableEq, Repr

/-- CFG.DEEMPH (10_state.md R46). -/
inductive Deemph where
  | de50
  | de75
deriving DecidableEq, Repr

/-- The configuration register CFG: its sixteen fields (10_state.md R32 to R48). -/
structure Cfg where
  freq       : BitVec 32
  band       : Band
  standby    : Bool
  mute       : MuteSel
  softMute   : Bool
  searchMode : Bool
  searchDir  : SearchDir
  searchThr  : SearchThr
  inj        : Injection
  sound      : Sound
  highCut    : Bool
  snc        : Bool
  clk        : Clock
  deemph     : Deemph
  port1      : Bool
  port2      : Bool
deriving DecidableEq, Repr

/-- A well-formed reference frequency in Hz (00_scope.md R8): the bounds are part of the type, so that an ill-formed
parameter choice (93_implementation_defined.md I9) cannot be built. -/
structure RefHz where
  hz    : Nat
  lower : 26423 ≤ hz
  upper : hz ≤ 4294967295
deriving DecidableEq, Repr

/-- Parameter P_SI: what the encoder puts into the search-indicator bit (00_scope.md R10). -/
inductive SiSource where
  | zero
  | searchMode
deriving DecidableEq, Repr

/-- The open parameters of the block (00_scope.md R8 to R12). They are fixed before reset for the whole run
(70_reset_and_hazards.md R231); State carries them as data that no step changes (assumption log 4). -/
structure Params where
  /-- REF_HZ(CLK_13M), open (R8). -/
  ref13M : RefHz
  /-- REF_HZ(CLK_6M5), open (R8). -/
  ref6M5 : RefHz
  /-- P_MUTE_BOTH_LR (R9). -/
  muteBothLR : Bool
  /-- P_SI (R10). -/
  si : SiSource
  /-- P_CLAMP_WRITEBACK (R11). -/
  clampWriteback : Bool
  /-- P_RESET_CFG (R12). -/
  resetCfg : Cfg
deriving DecidableEq, Repr

/-- The environment's answer to one transport write request (20_memory.md R61). -/
inductive WriteAnswer where
  | ok
  | fail
deriving DecidableEq, Repr, Inhabited

/-- The environment's answer to one transport read request; a failure carries no bytes (20_memory.md R62). -/
inductive ReadAnswer where
  | ok (frame : Frame)
  | fail
deriving DecidableEq, Repr, Inhabited

namespace Config

/-- BUS_ADDR, the tuner's 7-bit bus address (00_scope.md R7). -/
def busAddr : BitVec 7 := 0x60#7

/-- REF_HZ(XTAL_32K) (00_scope.md R7). -/
def refXtal32k : Nat := 32768

/-- FREE VALUE (assumption log 5): by how much REF_HZ(CLK_13M) exceeds the smallest well-formed reference. -/
opaque ref13MExcess : Fin 4294940873

/-- FREE VALUE (assumption log 5): by how much REF_HZ(CLK_6M5) exceeds the smallest well-formed reference. -/
opaque ref6M5Excess : Fin 4294940873

/-- FREE VALUE (assumption log 3): the environment's answer to a write request that State lists no answer for. -/
opaque writeDraw : Nat → WriteAnswer

/-- FREE VALUE (assumption log 3): the environment's answer to a read request that State lists no answer for. -/
opaque readDraw : Nat → ReadAnswer

/-- The default of P_RESET_CFG: the table of 10_state.md R56. -/
def defaultResetCfg : Cfg where
  freq       := 87500000#32
  band       := .usEu
  standby    := false
  mute       := .none
  softMute   := false
  searchMode := false
  searchDir  := .up
  searchThr  := .tmid
  inj        := .high
  sound      := .stereo
  highCut    := false
  snc        := false
  clk        := .xtal32k
  deemph     := .de50
  port1      := false
  port2      := false

/-- The parameters of the machine that comes out of reset: the defaults the spec names (00_scope.md R9 to R12) and
free values where it names none (R8). -/
def defaultParams : Params where
  ref13M         := ⟨26423 + ref13MExcess.val, by omega, by omega⟩
  ref6M5         := ⟨26423 + ref6M5Excess.val, by omega, by omega⟩
  muteBothLR     := false
  si             := .zero
  clampWriteback := false
  resetCfg       := defaultResetCfg

end Config

end Sys2Proof
end

