-- ==== Sys2Proof/Machine/Codes.lean ====
section
/-! DEFINITION. The numeric codes of the configuration fields (10_state.md R34 to R48), both ways. They are at once the
codes of the command arguments (30_encoding.md R82) and, for the one-bit fields, the frame bits (R97). -/

namespace Sys2Proof

/-- R34: 0 = US_EU, 1 = JAPAN. -/
def Band.bit : Band → Bool
  | .usEu => false
  | .japan => true

def Band.ofBit : Bool → Band
  | false => .usEu
  | true => .japan

/-- R36: 0 = NONE, 1 = LEFT, 2 = RIGHT, 3 = BOTH. -/
def MuteSel.code : MuteSel → BitVec 2
  | .none => 0#2
  | .left => 1#2
  | .right => 2#2
  | .both => 3#2

/-- R39: 1 = UP, 0 = DOWN. -/
def SearchDir.bit : SearchDir → Bool
  | .down => false
  | .up => true

def SearchDir.ofBit : Bool → SearchDir
  | false => .down
  | true => .up

/-- R40: 1 = TLOW, 2 = TMID, 3 = THIGH. -/
def SearchThr.code : SearchThr → BitVec 2
  | .tlow => 1#2
  | .tmid => 2#2
  | .thigh => 3#2

/-- R87, R179: code 0 is no threshold. -/
def SearchThr.ofCode? (v : BitVec 2) : Option SearchThr :=
  if v = 1#2 then some .tlow
  else if v = 2#2 then some .tmid
  else if v = 3#2 then some .thigh
  else none

/-- R41: 1 = HIGH, 0 = LOW. -/
def Injection.bit : Injection → Bool
  | .low => false
  | .high => true

def Injection.ofBit : Bool → Injection
  | false => .low
  | true => .high

/-- R42: 0 = STEREO, 1 = MONO. -/
def Sound.bit : Sound → Bool
  | .stereo => false
  | .mono => true

def Sound.ofBit : Bool → Sound
  | false => .stereo
  | true => .mono

/-- R45: 0 = XTAL_32K, 1 = CLK_13M, 2 = CLK_6M5. -/
def Clock.code : Clock → BitVec 2
  | .xtal32k => 0#2
  | .clk13m => 1#2
  | .clk6m5 => 2#2

/-- R87, R171: code 3 is no clock option. -/
def Clock.ofCode? (v : BitVec 2) : Option Clock :=
  if v = 0#2 then some .xtal32k
  else if v = 1#2 then some .clk13m
  else if v = 2#2 then some .clk6m5
  else none

/-- R46: 0 = DE50, 1 = DE75. -/
def Deemph.bit : Deemph → Bool
  | .de50 => false
  | .de75 => true

def Deemph.ofBit : Bool → Deemph
  | false => .de50
  | true => .de75

end Sys2Proof
end

