-- ==== Sys2Proof/Syntax.lean ====
section
/-! DEFINITION. The command set as abstract syntax: one constructor for each row of spec/opcode_table.json. -/

namespace Sys2Proof

/-- The commands of the map of 30_encoding.md R84. A constructor holds every bit of its row that the row's FUNC does
not fix, the hold bit `h` and the reserved bits included, because a word with a bad hold bit or a nonzero reserved bit
still selects its row and is refused by the row's own rule (R81, R86). Formats: R82. -/
inductive Instr where
  /-- FUNC 0x00, format Z (43_control.md R190). -/
  | nop (h : Bool) (arg : BitVec 32)
  /-- FUNC 0x01, format Z (42_config.md R162). -/
  | mute (h : Bool) (arg : BitVec 32)
  /-- FUNC 0x02, format Z (R163). -/
  | muteLeft (h : Bool) (arg : BitVec 32)
  /-- FUNC 0x03, format Z (R164). -/
  | muteRight (h : Bool) (arg : BitVec 32)
  /-- FUNC 0x04, format Z (R165). -/
  | unmute (h : Bool) (arg : BitVec 32)
  /-- FUNC 0x05, format Z (R166). -/
  | unmuteLeft (h : Bool) (arg : BitVec 32)
  /-- FUNC 0x06, format Z (R167). -/
  | unmuteRight (h : Bool) (arg : BitVec 32)
  /-- FUNC 0x07, format B (R168). -/
  | setStandby (h : Bool) (rsv : BitVec 31) (v : Bool)
  /-- FUNC 0x08, format B (R169). -/
  | setBand (h : Bool) (rsv : BitVec 31) (v : Band)
  /-- FUNC 0x09, format B (R170). -/
  | setSoftMute (h : Bool) (rsv : BitVec 31) (v : Bool)
  /-- FUNC 0x0A, format E2 (R171). -/
  | setClock (h : Bool) (rsv : BitVec 30) (v : BitVec 2)
  /-- FUNC 0x0B, format B (R172). -/
  | setHighCut (h : Bool) (rsv : BitVec 31) (v : Bool)
  /-- FUNC 0x0C, format B (R173). -/
  | setNoiseCancel (h : Bool) (rsv : BitVec 31) (v : Bool)
  /-- FUNC 0x0D, format B (R174). -/
  | setDeemphasis (h : Bool) (rsv : BitVec 31) (v : Deemph)
  /-- FUNC 0x0E, format F32 (R175): the frequency in Hz. -/
  | setFrequency (h : Bool) (f : BitVec 32)
  /-- FUNC 0x0F, format B (R176). -/
  | setSoundMode (h : Bool) (rsv : BitVec 31) (v : Sound)
  /-- FUNC 0x10, format B (R177). -/
  | setSearchMode (h : Bool) (rsv : BitVec 31) (v : Bool)
  /-- FUNC 0x11, format B (R178). -/
  | setSearchDir (h : Bool) (rsv : BitVec 31) (v : SearchDir)
  /-- FUNC 0x12, format E2 (R179). -/
  | setSearchThreshold (h : Bool) (rsv : BitVec 30) (v : BitVec 2)
  /-- FUNC 0x13, format B (R180). -/
  | setInjection (h : Bool) (rsv : BitVec 31) (v : Injection)
  /-- FUNC 0x14, format B (R181). -/
  | setPort1 (h : Bool) (rsv : BitVec 31) (v : Bool)
  /-- FUNC 0x15, format B (R182). -/
  | setPort2 (h : Bool) (rsv : BitVec 31) (v : Bool)
  /-- FUNC 0x20, format Z (41_codec.md R146). -/
  | upload (h : Bool) (arg : BitVec 32)
  /-- FUNC 0x21, format Z (R147). -/
  | download (h : Bool) (arg : BitVec 32)
  /-- FUNC 0x22, format TD (40_frequency.md R125): ARG[31], BD = ARG[30], C = ARG[29:28], I = ARG[27], F = ARG[26:0]. -/
  | toDivisor (h : Bool) (rsv : Bool) (bd : Band) (c : BitVec 2) (i : Injection) (f : BitVec 27)
  /-- FUNC 0x23, format FD (R126): ARG[31:30], C = ARG[29:28], I = ARG[27], ARG[26:14], D = ARG[13:0]. -/
  | fromDivisor (h : Bool) (rsvHi : BitVec 2) (c : BitVec 2) (i : Injection) (rsvLo : BitVec 13) (d : BitVec 14)
deriving DecidableEq, Repr

end Sys2Proof
end

