-- ==== Sys2Proof/WellFormed.lean ====
section
/-! DEFINITION. Which commands pass the checks a command word can fail by its own bits: the hold bit and the reserved
bits (30_encoding.md R86) and the illegal values (R87). The range check of TO_DIVISOR (40_frequency.md R125) is a
predicate of its own, since it is about a value and not about an encoding. -/

namespace Sys2Proof

/-- The commands of FUNC 0x01 to 0x15, on which the hold bit is free (30_encoding.md R83). -/
def Instr.isConfig : Instr → Bool
  | .nop _ _ | .upload _ _ | .download _ _ => false
  | .toDivisor _ _ _ _ _ _ | .fromDivisor _ _ _ _ _ _ => false
  | .mute _ _ | .muteLeft _ _ | .muteRight _ _ | .unmute _ _ | .unmuteLeft _ _ | .unmuteRight _ _ => true
  | .setStandby _ _ _ | .setBand _ _ _ | .setSoftMute _ _ _ | .setClock _ _ _ | .setHighCut _ _ _ => true
  | .setNoiseCancel _ _ _ | .setDeemphasis _ _ _ | .setFrequency _ _ | .setSoundMode _ _ _ => true
  | .setSearchMode _ _ _ | .setSearchDir _ _ _ | .setSearchThreshold _ _ _ | .setInjection _ _ _ => true
  | .setPort1 _ _ _ | .setPort2 _ _ _ => true

/-- The command's hold bit H (30_encoding.md R80). -/
def Instr.hold : Instr → Bool
  | .nop h _ | .mute h _ | .muteLeft h _ | .muteRight h _ | .unmute h _ | .unmuteLeft h _ | .unmuteRight h _ => h
  | .setStandby h _ _ | .setBand h _ _ | .setSoftMute h _ _ | .setClock h _ _ | .setHighCut h _ _ => h
  | .setNoiseCancel h _ _ | .setDeemphasis h _ _ | .setFrequency h _ | .setSoundMode h _ _ => h
  | .setSearchMode h _ _ | .setSearchDir h _ _ | .setSearchThreshold h _ _ | .setInjection h _ _ => h
  | .setPort1 h _ _ | .setPort2 h _ _ | .upload h _ | .download h _ => h
  | .toDivisor h _ _ _ _ _ | .fromDivisor h _ _ _ _ _ => h

/-- Every reserved bit of the argument format is 0 (30_encoding.md R82). -/
def Instr.reservedZero : Instr → Bool
  | .nop _ arg | .mute _ arg | .muteLeft _ arg | .muteRight _ arg => arg == 0#32
  | .unmute _ arg | .unmuteLeft _ arg | .unmuteRight _ arg | .upload _ arg | .download _ arg => arg == 0#32
  | .setStandby _ rsv _ | .setSoftMute _ rsv _ | .setHighCut _ rsv _ | .setNoiseCancel _ rsv _ => rsv == 0#31
  | .setSearchMode _ rsv _ | .setPort1 _ rsv _ | .setPort2 _ rsv _ => rsv == 0#31
  | .setBand _ rsv _ => rsv == 0#31
  | .setDeemphasis _ rsv _ => rsv == 0#31
  | .setSoundMode _ rsv _ => rsv == 0#31
  | .setSearchDir _ rsv _ => rsv == 0#31
  | .setInjection _ rsv _ => rsv == 0#31
  | .setClock _ rsv _ | .setSearchThreshold _ rsv _ => rsv == 0#30
  | .setFrequency _ _ => true
  | .toDivisor _ rsv _ _ _ _ => !rsv
  | .fromDivisor _ rsvHi _ _ rsvLo _ => rsvHi == 0#2 && rsvLo == 0#13

/-- No operand has a code the spec calls illegal (30_encoding.md R87). -/
def Instr.valuesLegal : Instr → Bool
  | .setClock _ _ v => v != 3#2
  | .setSearchThreshold _ _ v => v != 0#2
  | .toDivisor _ _ _ c _ _ | .fromDivisor _ _ c _ _ _ => c != 3#2
  | .nop _ _ | .upload _ _ | .download _ _ => true
  | .mute _ _ | .muteLeft _ _ | .muteRight _ _ | .unmute _ _ | .unmuteLeft _ _ | .unmuteRight _ _ => true
  | .setStandby _ _ _ | .setBand _ _ _ | .setSoftMute _ _ _ | .setHighCut _ _ _ => true
  | .setNoiseCancel _ _ _ | .setDeemphasis _ _ _ | .setFrequency _ _ | .setSoundMode _ _ _ => true
  | .setSearchMode _ _ _ | .setSearchDir _ _ _ | .setInjection _ _ _ => true
  | .setPort1 _ _ _ | .setPort2 _ _ _ => true

/-- A command that no check of 60_exceptions.md R202 but the range check can refuse. -/
def Instr.wellFormed (i : Instr) : Bool :=
  (i.isConfig || !i.hold) && i.reservedZero && i.valuesLegal

end Sys2Proof
end

