-- ==== Sys2Proof/Decode.lean ====
section
/-! DEFINITION. The decoder and the encoder of command words (30_encoding.md R80 to R85), both written from the format
table R82 and the command map R84. -/

namespace Sys2Proof

/-- Why a command word selects no row of the map (30_encoding.md R85). -/
inductive DecodeReject where
  /-- Bit 39, R, is 1. -/
  | reservedBit39
  /-- FUNC is none of the map's function codes. -/
  | unassignedFunc (func : BitVec 6)
deriving DecidableEq, Repr

/-- A decoder's answer. -/
inductive Decoded where
  | command (i : Instr)
  | reject (r : DecodeReject)
deriving DecidableEq, Repr

/-! ## The fields of a command word (R80) -/

/-- R, bit 39. -/
def wordR (w : CommandWord) : Bool := w.getLsbD 39

/-- H, bit 38. -/
def wordH (w : CommandWord) : Bool := w.getLsbD 38

/-- FUNC, bits 37 to 32. -/
def wordFunc (w : CommandWord) : BitVec 6 := w.extractLsb' 32 6

/-- ARG, bits 31 to 0. -/
def wordArg (w : CommandWord) : BitVec 32 := w.extractLsb' 0 32

/-- A command word from its fields, R being 0. -/
def mkWord (h : Bool) (func : BitVec 6) (arg : BitVec 32) : CommandWord :=
  BitVec.ofBool false ++ BitVec.ofBool h ++ func ++ arg

/-! ## The argument formats (R82) -/

/-- Format B: the reserved bits [31:1]. -/
def argB_rsv (a : BitVec 32) : BitVec 31 := a.extractLsb' 1 31

/-- Format B: V = ARG[0]. -/
def argB_v (a : BitVec 32) : Bool := a.getLsbD 0

/-- Format E2: the reserved bits [31:2]. -/
def argE2_rsv (a : BitVec 32) : BitVec 30 := a.extractLsb' 2 30

/-- Format E2: V = ARG[1:0]. -/
def argE2_v (a : BitVec 32) : BitVec 2 := a.extractLsb' 0 2

/-- Formats TD and FD: C = ARG[29:28]. -/
def argC (a : BitVec 32) : BitVec 2 := a.extractLsb' 28 2

/-- Formats TD and FD: I = ARG[27]. -/
def argI (a : BitVec 32) : Bool := a.getLsbD 27

/-- Format TD: the reserved bit ARG[31]. -/
def argTD_rsv (a : BitVec 32) : Bool := a.getLsbD 31

/-- Format TD: BD = ARG[30]. -/
def argTD_bd (a : BitVec 32) : Bool := a.getLsbD 30

/-- Format TD: F = ARG[26:0]. -/
def argTD_f (a : BitVec 32) : BitVec 27 := a.extractLsb' 0 27

/-- Format FD: the reserved bits ARG[31:30]. -/
def argFD_rsvHi (a : BitVec 32) : BitVec 2 := a.extractLsb' 30 2

/-- Format FD: the reserved bits ARG[26:14]. -/
def argFD_rsvLo (a : BitVec 32) : BitVec 13 := a.extractLsb' 14 13

/-- Format FD: D = ARG[13:0]. -/
def argFD_d (a : BitVec 32) : BitVec 14 := a.extractLsb' 0 14

def mkArgB (rsv : BitVec 31) (v : Bool) : BitVec 32 := rsv ++ BitVec.ofBool v

def mkArgE2 (rsv : BitVec 30) (v : BitVec 2) : BitVec 32 := rsv ++ v

def mkArgTD (rsv bd : Bool) (c : BitVec 2) (i : Bool) (f : BitVec 27) : BitVec 32 :=
  BitVec.ofBool rsv ++ BitVec.ofBool bd ++ c ++ BitVec.ofBool i ++ f

def mkArgFD (rsvHi : BitVec 2) (c : BitVec 2) (i : Bool) (rsvLo : BitVec 13) (d : BitVec 14) : BitVec 32 :=
  rsvHi ++ c ++ BitVec.ofBool i ++ rsvLo ++ d

/-! ## The command map (R84) -/

/-- The row that FUNC selects, its fields taken from H and ARG; none for an unassigned FUNC (R85). -/
def decodeFunc (h : Bool) (func : BitVec 6) (a : BitVec 32) : Option Instr :=
  match func.toNat with
  | 0x00 => some (.nop h a)
  | 0x01 => some (.mute h a)
  | 0x02 => some (.muteLeft h a)
  | 0x03 => some (.muteRight h a)
  | 0x04 => some (.unmute h a)
  | 0x05 => some (.unmuteLeft h a)
  | 0x06 => some (.unmuteRight h a)
  | 0x07 => some (.setStandby h (argB_rsv a) (argB_v a))
  | 0x08 => some (.setBand h (argB_rsv a) (Band.ofBit (argB_v a)))
  | 0x09 => some (.setSoftMute h (argB_rsv a) (argB_v a))
  | 0x0A => some (.setClock h (argE2_rsv a) (argE2_v a))
  | 0x0B => some (.setHighCut h (argB_rsv a) (argB_v a))
  | 0x0C => some (.setNoiseCancel h (argB_rsv a) (argB_v a))
  | 0x0D => some (.setDeemphasis h (argB_rsv a) (Deemph.ofBit (argB_v a)))
  | 0x0E => some (.setFrequency h a)
  | 0x0F => some (.setSoundMode h (argB_rsv a) (Sound.ofBit (argB_v a)))
  | 0x10 => some (.setSearchMode h (argB_rsv a) (argB_v a))
  | 0x11 => some (.setSearchDir h (argB_rsv a) (SearchDir.ofBit (argB_v a)))
  | 0x12 => some (.setSearchThreshold h (argE2_rsv a) (argE2_v a))
  | 0x13 => some (.setInjection h (argB_rsv a) (Injection.ofBit (argB_v a)))
  | 0x14 => some (.setPort1 h (argB_rsv a) (argB_v a))
  | 0x15 => some (.setPort2 h (argB_rsv a) (argB_v a))
  | 0x20 => some (.upload h a)
  | 0x21 => some (.download h a)
  | 0x22 => some (.toDivisor h (argTD_rsv a) (Band.ofBit (argTD_bd a)) (argC a) (Injection.ofBit (argI a)) (argTD_f a))
  | 0x23 => some (.fromDivisor h (argFD_rsvHi a) (argC a) (Injection.ofBit (argI a)) (argFD_rsvLo a) (argFD_d a))
  | _ => none

/-- Decoding is total (R81): a word selects one row, or is rejected by name (R85). -/
def decodeWord (w : CommandWord) : Decoded :=
  if wordR w then .reject .reservedBit39
  else
    match decodeFunc (wordH w) (wordFunc w) (wordArg w) with
    | some i => .command i
    | none => .reject (.unassignedFunc (wordFunc w))

/-- The function code of a command (R84). -/
def Instr.func : Instr → BitVec 6
  | .nop _ _ => 0x00#6
  | .mute _ _ => 0x01#6
  | .muteLeft _ _ => 0x02#6
  | .muteRight _ _ => 0x03#6
  | .unmute _ _ => 0x04#6
  | .unmuteLeft _ _ => 0x05#6
  | .unmuteRight _ _ => 0x06#6
  | .setStandby _ _ _ => 0x07#6
  | .setBand _ _ _ => 0x08#6
  | .setSoftMute _ _ _ => 0x09#6
  | .setClock _ _ _ => 0x0A#6
  | .setHighCut _ _ _ => 0x0B#6
  | .setNoiseCancel _ _ _ => 0x0C#6
  | .setDeemphasis _ _ _ => 0x0D#6
  | .setFrequency _ _ => 0x0E#6
  | .setSoundMode _ _ _ => 0x0F#6
  | .setSearchMode _ _ _ => 0x10#6
  | .setSearchDir _ _ _ => 0x11#6
  | .setSearchThreshold _ _ _ => 0x12#6
  | .setInjection _ _ _ => 0x13#6
  | .setPort1 _ _ _ => 0x14#6
  | .setPort2 _ _ _ => 0x15#6
  | .upload _ _ => 0x20#6
  | .download _ _ => 0x21#6
  | .toDivisor _ _ _ _ _ _ => 0x22#6
  | .fromDivisor _ _ _ _ _ _ => 0x23#6

/-- The argument field of a command (R82). -/
def Instr.arg : Instr → BitVec 32
  | .nop _ a | .mute _ a | .muteLeft _ a | .muteRight _ a | .unmute _ a | .unmuteLeft _ a | .unmuteRight _ a => a
  | .upload _ a | .download _ a => a
  | .setStandby _ r v | .setSoftMute _ r v | .setHighCut _ r v | .setNoiseCancel _ r v => mkArgB r v
  | .setSearchMode _ r v | .setPort1 _ r v | .setPort2 _ r v => mkArgB r v
  | .setBand _ r v => mkArgB r v.bit
  | .setDeemphasis _ r v => mkArgB r v.bit
  | .setSoundMode _ r v => mkArgB r v.bit
  | .setSearchDir _ r v => mkArgB r v.bit
  | .setInjection _ r v => mkArgB r v.bit
  | .setClock _ r v | .setSearchThreshold _ r v => mkArgE2 r v
  | .setFrequency _ f => f
  | .toDivisor _ r bd c i f => mkArgTD r bd.bit c i.bit f
  | .fromDivisor _ rh c i rl d => mkArgFD rh c i.bit rl d

/-- The command word of a command (R80). -/
def encode (i : Instr) : CommandWord := mkWord i.hold i.func i.arg

/-- The command that `nbits` bits of value `w` stand for, numbered as spec/opcode_table.json numbers them: a command is
one 40-bit word, so bit 0 of `w` is bit 0 of the word and bits from `nbits` up are 0 (assumption log 12). -/
def decodeTableWord (nbits w : Nat) : Option Instr :=
  if nbits ≤ 40 then
    match decodeWord (BitVec.ofNat 40 (w % 2 ^ nbits)) with
    | .command i => some i
    | .reject _ => none
  else none

end Sys2Proof
end

