-- ==== Sys2Proof/Machine/State.lean ====
section
/-! DEFINITION. The machine's state: the block's registers as 10_state.md R30 lists them, the trace the model keeps for
the observation (20_memory.md R67), and, as plain data beside them, what the spec makes a parameter of the step: the
parameters of the run, the host's pending inputs and the environment's pending answers. -/

namespace Sys2Proof.Machine

/-- STATUS, the last decoded read frame (10_state.md R51). -/
structure Status where
  ready  : Bool
  blf    : Bool
  stereo : Bool
  level  : BitVec 4
  div    : BitVec 14
  /-- 32-bit two's complement, in units of 100 000 Hz. -/
  freq   : BitVec 32
  /-- RAW[0..4], the five bytes as received. -/
  raw    : Frame
deriving DecidableEq, Repr

/-- One transport request and its answer (20_memory.md R67). -/
inductive TraceEntry where
  | write (addr : BitVec 7) (frame : Frame) (answer : WriteAnswer)
  | read (addr : BitVec 7) (answer : ReadAnswer)
deriving DecidableEq, Repr

/-- What the host can do to the block, one event at a time, each between commands (60_exceptions.md R213). -/
inductive HostEvent where
  /-- Assert the reset input (70_reset_and_hazards.md R230). -/
  | reset
  /-- Present a command word on the command port (30_encoding.md R80). -/
  | command (w : CommandWord)
  /-- Read register `reg` through the read port and use the bits of it that `mask` selects (10_state.md R55; assumption
  log 8). -/
  | readReg (reg : BitVec 4) (mask : Word)
deriving DecidableEq, Repr

/-- What a register read returned to the host: the register's value, the bits outside `mask` being 0. -/
structure Reply where
  reg   : BitVec 4
  mask  : Word
  value : Word
deriving DecidableEq, Repr

/-- The environment's side of the transport (20_memory.md R66): the answers it has settled on, oldest first, and how
many answers have been drawn as free values so far (assumption log 3). -/
structure Environment where
  writeAnswers : List WriteAnswer
  readAnswers  : List ReadAnswer
  draws        : Nat
deriving DecidableEq, Repr

/-- The state of the machine. -/
structure State where
  /-- CFG (R32 to R48). -/
  cfg         : Cfg
  /-- WF[0..4] (R49), meaningful when `wfValid`. -/
  wf          : Frame
  /-- WF_VALID (R49). -/
  wfValid     : Bool
  /-- DIV_LAST (R50), meaningful when `wfValid`. -/
  divLast     : BitVec 14
  /-- STATUS (R51), meaningful when `statusValid`. -/
  status      : Status
  /-- STATUS_VALID (R52). -/
  statusValid : Bool
  /-- RESULT, 32-bit two's complement (R53), meaningful when `resultValid`. -/
  result      : BitVec 32
  /-- RESULT_VALID (R53). -/
  resultValid : Bool
  /-- ERR, sticky (R54). -/
  err         : Bool
  /-- ERR_FIRST (R54). -/
  errFirst    : BitVec 3
  /-- LAST_CODE (R54). -/
  lastCode    : BitVec 3
  /-- The transport requests since reset, oldest first (20_memory.md R67). -/
  trace       : List TraceEntry
  /-- What register reads have returned to the host since reset, oldest first (assumption log 8). -/
  replies     : List Reply
  /-- The parameters of the run, which no step changes (70_reset_and_hazards.md R231; assumption log 4). -/
  params      : Params
  /-- The host's inputs still to come, next first (assumption log 1). -/
  host        : List HostEvent
  /-- The environment's answers still to come (assumption log 3). -/
  env         : Environment
deriving DecidableEq, Repr

/-- Why the machine stops with a fault. -/
inductive Fault where
  /-- Raised by a host register read that uses a bit of WF, DIV_LAST, STATUS or RESULT while its valid bit is 0
  (10_state.md R49, R52, R53, R55; 93_implementation_defined.md I5). Safe: a run that reads such a bit is stopped and
  never given a value. No command raises it. -/
  | unspecifiedRead (reg : BitVec 4)
deriving DecidableEq, Repr

/-- Why the machine has no meaning for an instruction. -/
inductive Refusal where
  /-- Raised by an arm of `exec` for a command that has no meaning yet. Safe: nothing is claimed of it. No arm raises it
  now. -/
  | notModelled (mnemonic : String)
deriving DecidableEq, Repr

/-- The value STATUS holds while STATUS_VALID is 0; the spec leaves it unspecified (assumption log 6). -/
def Status.unspecified : Status where
  ready  := false
  blf    := false
  stereo := false
  level  := 0#4
  div    := 0#14
  freq   := 0#32
  raw    := ⟨0#8, 0#8, 0#8, 0#8, 0#8⟩

/-- The state right after reset under parameters `p` (10_state.md R56, 70_reset_and_hazards.md R230). The values given to
WF, DIV_LAST, STATUS and RESULT, which the spec leaves unspecified, are assumption log 6. -/
def State.resetWith (p : Params) : State where
  cfg         := p.resetCfg
  wf          := ⟨0#8, 0#8, 0#8, 0#8, 0#8⟩
  wfValid     := false
  divLast     := 0#14
  status      := Status.unspecified
  statusValid := false
  result      := 0#32
  resultValid := false
  err         := false
  errFirst    := 0#3
  lastCode    := 0#3
  trace       := []
  replies     := []
  params      := p
  host        := []
  env         := ⟨[], [], 0⟩

/-- The machine right after reset, with the default parameters: no host input is pending and no answer is settled. -/
def State.reset : State := State.resetWith Config.defaultParams

end Sys2Proof.Machine
end

