-- ==== Sys2Proof/Machine/Synth.lean ====
section
/-! DEFINITION. The FrequencySynthesizer (40_frequency.md): clamping and the two directions of the conversion between a
frequency and a divisor, on mathematical integers (00_scope.md R13, R16). -/

namespace Sys2Proof.Machine

/-- `fdiv(a, b)` for b > 0: the greatest integer q with q * b <= a (00_scope.md R16). -/
def fdiv (a b : Int) : Int := a / b

/-- `rdiv_away(a, b)` for even b > 0: the integer nearest to a / b, ties away from zero (00_scope.md R16). -/
def rdivAway (a b : Int) : Int :=
  if 0 ≤ a then fdiv (a + b / 2) b else -(fdiv (-a + b / 2) b)

/-- `clamp(v, lo, hi)` (00_scope.md R16). -/
def clamp (v lo hi : Nat) : Nat :=
  if v < lo then lo else if hi < v then hi else v

/-- The lower limit of a band in Hz (00_scope.md R7). -/
def bandLo : Band → Nat
  | .usEu => 87500000
  | .japan => 76000000

/-- The upper limit of a band in Hz (00_scope.md R7). -/
def bandHi : Band → Nat
  | .usEu => 108000000
  | .japan => 91000000

/-- `band_clamp(f, b)` (40_frequency.md R120). -/
def bandClamp (f : Nat) (b : Band) : Nat := clamp f (bandLo b) (bandHi b)

/-- `REF_HZ(c)`, the one table of both directions (40_frequency.md R124; 00_scope.md R7, R8). -/
def refHz (p : Params) : Clock → Nat
  | .xtal32k => Config.refXtal32k
  | .clk13m => p.ref13M.hz
  | .clk6m5 => p.ref6M5.hz

/-- IF_HZ = 225 000 with the sign of the injection side: + for HIGH, - for LOW (40_frequency.md R121). -/
def ifOffset : Injection → Int
  | .high => 225000
  | .low => -225000

/-- `to_divisor(inj, ref, f)` (40_frequency.md R121). -/
def toDivisor (inj : Injection) (ref f : Nat) : Int :=
  fdiv (4 * ((f : Int) + ifOffset inj)) ref

/-- `from_divisor(inj, ref, d)`, in units of 100 000 Hz (40_frequency.md R123). -/
def fromDivisor (inj : Injection) (ref d : Nat) : Int :=
  rdivAway ((d : Int) * ref - 4 * ifOffset inj) 400000

end Sys2Proof.Machine
end

