-- ==== Sys2Proof/Machine/Codec.lean ====
section
/-! DEFINITION. The RegisterCodec (41_codec.md): the bit-field primitives, the divisor packing, the write-frame encoder
and the read-frame decoder, over the layouts of 30_encoding.md sections 6 and 7. -/

namespace Sys2Proof.Machine

/-! ## Bit-field primitives (R140) -/

/-- `get_bit(x, i)`. -/
def getBit (x : Byte) (i : Nat) : Bool := x.getLsbD i

/-- The byte with ones at positions hi down to lo. -/
def fieldMask (hi lo : Nat) : Byte := BitVec.ofNat 8 ((2 ^ (hi - lo + 1) - 1) * 2 ^ lo)

/-- `set_field(x, hi, lo, v)`: bits above the field's width are dropped from v. -/
def setField (x : Byte) (hi lo : Nat) (v : Nat) : Byte :=
  (x &&& ~~~fieldMask hi lo) ||| (BitVec.ofNat 8 (v % 2 ^ (hi - lo + 1)) <<< lo)

/-- `set_bit(x, i, v)`: bit i becomes v[0]. -/
def setBit (x : Byte) (i : Nat) (v : Bool) : Byte := setField x i i v.toNat

/-- `get_field(x, hi, lo)`, as an unsigned integer. -/
def getField (x : Byte) (hi lo : Nat) : Nat := (x.toNat / 2 ^ lo) % 2 ^ (hi - lo + 1)

/-! ## Divisor packing (R141) -/

/-- The divisor modulo 16384, as the 14 bits the frames carry. -/
def divisorBits (d : Int) : BitVec 14 := BitVec.ofInt 14 d

/-- `hi` of `pack(d)`: divisor bits 13 to 8. -/
def packHi (d : Int) : BitVec 6 := (divisorBits d).extractLsb' 8 6

/-- `lo` of `pack(d)`: divisor bits 7 to 0. -/
def packLo (d : Int) : Byte := (divisorBits d).extractLsb' 0 8

/-- `unpack(x0, x1)`: bits 7 and 6 of the high byte are not read. -/
def unpack (x0 x1 : Byte) : BitVec 14 := x0.extractLsb' 0 6 ++ x1

/-! ## The write frame (R142; 30_encoding.md R90 to R100) -/

/-- MUTE, byte0 bit 7 (30_encoding.md R99). -/
def muteBit (m : MuteSel) : Bool := m == .both

/-- MR, byte2 bit 2 (30_encoding.md R99). -/
def muteRightBit (p : Params) (m : MuteSel) : Bool := m == .right || (p.muteBothLR && m == .both)

/-- ML, byte2 bit 1 (30_encoding.md R99). -/
def muteLeftBit (p : Params) (m : MuteSel) : Bool := m == .left || (p.muteBothLR && m == .both)

/-- XTAL, byte3 bit 4 (30_encoding.md R98). -/
def xtalBit (c : Clock) : Bool := c == .xtal32k

/-- PLLREF, byte4 bit 7 (30_encoding.md R98). -/
def pllrefBit (c : Clock) : Bool := c == .clk6m5

/-- SI, byte3 bit 0 (30_encoding.md R100). -/
def searchIndicatorBit (p : Params) (c : Cfg) : Bool :=
  match p.si with
  | .zero => false
  | .searchMode => c.searchMode

/-- `encode(CFG, d)` (41_codec.md R142). -/
def encodeFrame (p : Params) (c : Cfg) (d : Int) : Frame where
  b0 := BitVec.ofBool (muteBit c.mute) ++ BitVec.ofBool c.searchMode ++ packHi d
  b1 := packLo d
  b2 := BitVec.ofBool c.searchDir.bit ++ c.searchThr.code ++ BitVec.ofBool c.inj.bit ++ BitVec.ofBool c.sound.bit ++
    BitVec.ofBool (muteRightBit p c.mute) ++ BitVec.ofBool (muteLeftBit p c.mute) ++ BitVec.ofBool c.port1
  b3 := BitVec.ofBool c.port2 ++ BitVec.ofBool c.standby ++ BitVec.ofBool c.band.bit ++ BitVec.ofBool (xtalBit c.clk) ++
    BitVec.ofBool c.softMute ++ BitVec.ofBool c.highCut ++ BitVec.ofBool c.snc ++ BitVec.ofBool (searchIndicatorBit p c)
  b4 := BitVec.ofBool (pllrefBit c.clk) ++ BitVec.ofBool c.deemph.bit ++ 0#6

/-! ## The read frame (R143; 30_encoding.md R101 to R106) -/

/-- `decode(b0, .., b4, inj, c)` with the raw copy of 10_state.md R51; `ref` is REF_HZ of the clock selector. -/
def decodeFrame (f : Frame) (inj : Injection) (ref : Nat) : Status where
  ready  := f.b0.getLsbD 7
  blf    := f.b0.getLsbD 6
  stereo := f.b2.getLsbD 7
  level  := f.b3.extractLsb' 4 4
  div    := unpack f.b0 f.b1
  freq   := BitVec.ofInt 32 (fromDivisor inj ref (unpack f.b0 f.b1).toNat)
  raw    := f

end Sys2Proof.Machine
end

