-- ==== Sys2Proof/Machine/Flags.lean ====
section
/-! DEFINITION. The outcome codes and the flags ERR, ERR_FIRST and LAST_CODE (10_state.md R54, 60_exceptions.md R200). -/

namespace Sys2Proof.Machine

/-- The codes with which the block refuses a command (60_exceptions.md R200). -/
inductive ErrCode where
  | illegalOpcode
  | reservedField
  | illegalValue
  | range
deriving DecidableEq, Repr

/-- The numeric code, as ERR_FIRST and LAST_CODE hold it. -/
def errBits : ErrCode → BitVec 3
  | .illegalOpcode => 1#3
  | .reservedField => 2#3
  | .illegalValue => 3#3
  | .range => 4#3

/-- LAST_CODE of a completed command without a transport failure: OK. -/
def codeOk : BitVec 3 := 0#3

/-- LAST_CODE of a command whose transport request failed: TRANSPORT. -/
def codeTransport : BitVec 3 := 5#3

/-- LAST_CODE after a transport request (41_codec.md R144, R147). -/
def writeCode : WriteAnswer → BitVec 3
  | .ok => codeOk
  | .fail => codeTransport

/-- LAST_CODE is written; no other flag changes (10_state.md R54). -/
def setLastCode (c : BitVec 3) (s : State) : State := { s with lastCode := c }

/-- The error flags after a refusal with code `c` (60_exceptions.md R203). -/
def setErrFlags (c : ErrCode) (s : State) : State :=
  { s with
    errFirst := if s.err then s.errFirst else errBits c
    err      := true
    lastCode := errBits c }

end Sys2Proof.Machine
end

