-- ==== Sys2Proof/Machine/Operands.lean ====
section
/-! DEFINITION. The operand forms of the commands: the reserved-bit checks of the argument formats (30_encoding.md R82,
R86) and the fields of the configuration register a command writes (42_config.md). -/

namespace Sys2Proof.Machine

/-- Format Z on a configuration command: ARG = 0, the hold bit is free (R82, R83). -/
def formatZ (arg : BitVec 32) : Bool := arg == 0#32

/-- Format B: ARG[31:1] = 0. -/
def formatB (rsv : BitVec 31) : Bool := rsv == 0#31

/-- Format E2: ARG[31:2] = 0. -/
def formatE2 (rsv : BitVec 30) : Bool := rsv == 0#30

/-- Format F32 has no reserved bit. -/
def formatF32 : Bool := true

/-- Format TD: ARG[31] = 0. -/
def formatTD (rsv : Bool) : Bool := !rsv

/-- Format FD: ARG[31:30] = 0 and ARG[26:14] = 0. -/
def formatFD (rsvHi : BitVec 2) (rsvLo : BitVec 13) : Bool := rsvHi == 0#2 && rsvLo == 0#13

/-- The hold bit of a command that is no configuration command must be 0 (R83, R86). -/
def notHeld (h : Bool) : Bool := !h

/-- The mute selector after UNMUTE_LEFT (42_config.md R166). -/
def unmuteLeftSel : MuteSel → MuteSel
  | .both => .right
  | .left => .none
  | .right => .right
  | .none => .none

/-- The mute selector after UNMUTE_RIGHT (42_config.md R167). -/
def unmuteRightSel : MuteSel → MuteSel
  | .both => .left
  | .left => .left
  | .right => .none
  | .none => .none

end Sys2Proof.Machine
end

