-- ==== Sys2Proof/Machine/Ops.lean ====
section
/-! DEFINITION. The operations the commands share: refusing a command (the block's only exception), the two transport
requests, the upload sequence, the common behaviour of the configuration commands, and reset. -/

namespace Sys2Proof.Machine

/-- `raise Err(code)` (60_exceptions.md R203): the error flags are recorded and nothing else happens. There is no handler,
no saved state and no return (R205). -/
def raiseErr (c : ErrCode) (s : State) : State := setErrFlags c s

/-! ## The transport (20_memory.md R61, R62, R66, R67) -/

/-- The environment's answer to the next write request. -/
def nextWriteAnswer (e : Environment) : WriteAnswer :=
  match e.writeAnswers with
  | a :: _ => a
  | [] => Config.writeDraw e.draws

/-- The environment after it has answered a write request. -/
def afterWriteAnswer (e : Environment) : Environment :=
  match e.writeAnswers with
  | _ :: rest => { e with writeAnswers := rest }
  | [] => { e with draws := e.draws + 1 }

/-- The environment's answer to the next read request. -/
def nextReadAnswer (e : Environment) : ReadAnswer :=
  match e.readAnswers with
  | a :: _ => a
  | [] => Config.readDraw e.draws

/-- The environment after it has answered a read request. -/
def afterReadAnswer (e : Environment) : Environment :=
  match e.readAnswers with
  | _ :: rest => { e with readAnswers := rest }
  | [] => { e with draws := e.draws + 1 }

/-- `MemWrite(0x60, 5, f)`: the request and its answer are recorded, once; the block never retries (R61). -/
def memWrite (f : Frame) (s : State) : State :=
  { s with
    trace := s.trace ++ [.write Config.busAddr f (nextWriteAnswer s.env)]
    env   := afterWriteAnswer s.env }

/-- `MemRead(0x60, 5)`: the request and its answer are recorded, once (R62). -/
def memRead (s : State) : State :=
  { s with
    trace := s.trace ++ [.read Config.busAddr (nextReadAnswer s.env)]
    env   := afterReadAnswer s.env }

/-! ## The upload sequence (41_codec.md R144) -/

/-- f_c: the frequency clamped into the active band. -/
def uploadFreq (c : Cfg) : Nat := bandClamp c.freq.toNat c.band

/-- The clamp's write-back, if P_CLAMP_WRITEBACK (00_scope.md R11). -/
def clampWriteback (p : Params) (c : Cfg) : Cfg :=
  if p.clampWriteback then { c with freq := BitVec.ofNat 32 (uploadFreq c) } else c

/-- d: the divisor of the clamped frequency. -/
def uploadDivisor (p : Params) (c : Cfg) : Int := toDivisor c.inj (refHz p c.clk) (uploadFreq c)

/-- The frame an upload sends. -/
def uploadFrame (p : Params) (c : Cfg) : Frame := encodeFrame p c (uploadDivisor p c)

/-- The block's own writes of the upload sequence, before the transport request. -/
def loadWriteFrame (s : State) : State :=
  { s with
    cfg     := clampWriteback s.params s.cfg
    wf      := uploadFrame s.params s.cfg
    divLast := divisorBits (uploadDivisor s.params s.cfg)
    wfValid := true }

/-- The upload sequence: the registers are written, the frame is sent, the outcome is reported in LAST_CODE alone
(60_exceptions.md R201); nothing is rolled back. -/
def uploadSequence (s : State) : State :=
  setLastCode (writeCode (nextWriteAnswer s.env)) (memWrite (uploadFrame s.params s.cfg) (loadWriteFrame s))

/-! ## The download (41_codec.md R147) -/

/-- DOWNLOAD's writes for the environment's answer. -/
def takeReadAnswer (a : ReadAnswer) (s : State) : State :=
  match a with
  | .fail => setLastCode codeTransport s
  | .ok f =>
    setLastCode codeOk
      { s with
        status      := decodeFrame f s.cfg.inj (refHz s.params s.cfg.clk)
        statusValid := true }

/-- The read request and what its answer does. -/
def downloadSequence (s : State) : State := takeReadAnswer (nextReadAnswer s.env) (memRead s)

/-! ## Configuration commands (42_config.md R160) -/

/-- The last step of a configuration command: an upload, or none if the hold bit is set. -/
def finishConfig (h : Bool) (s : State) : State :=
  if h then setLastCode codeOk s else uploadSequence s

/-- A configuration command with hold bit `h`: `fmt` says whether its reserved bits are 0, and `c` is the configuration
it writes, none where its value is illegal. Every check comes before every write (43_control.md R191). -/
def configCommand (h fmt : Bool) (c : Option Cfg) (s : State) : State :=
  if fmt then
    match c with
    | some c' => finishConfig h { s with cfg := c' }
    | none => raiseErr .illegalValue s
  else raiseErr .reservedField s

/-! ## Results of the converter commands (40_frequency.md R125, R126) -/

/-- RESULT is written, as a 32-bit two's-complement value (assumption log 10), and the command completes. -/
def setResult (v : Int) (s : State) : State :=
  setLastCode codeOk { s with result := BitVec.ofInt 32 v, resultValid := true }

/-! ## Reset (70_reset_and_hazards.md R230) -/

/-- The reset input: every piece of the block's state takes its reset value and the trace becomes empty. The parameters
stay (R231), and so do the host's and the environment's pending inputs, which are not the block's (assumption log 9). -/
def applyReset (s : State) : State :=
  { State.resetWith s.params with
    host := s.host
    env  := s.env }

end Sys2Proof.Machine
end

