-- ==== Sys2Proof/Machine/ConfigCommands.lean ====
section
/-! DEFINITION. The one-field configuration commands (42_config.md R168 to R182). -/

namespace Sys2Proof.Machine

/-- SET_STANDBY (R168). -/
def execSetStandby (h : Bool) (rsv : BitVec 31) (v : Bool) (s : State) : Host.Outcome State Fault Refusal :=
  .next (configCommand h (formatB rsv) (some { s.cfg with standby := v }) s)

/-- SET_BAND (R169). -/
def execSetBand (h : Bool) (rsv : BitVec 31) (v : Band) (s : State) : Host.Outcome State Fault Refusal :=
  .next (configCommand h (formatB rsv) (some { s.cfg with band := v }) s)

/-- SET_SOFT_MUTE (R170). -/
def execSetSoftMute (h : Bool) (rsv : BitVec 31) (v : Bool) (s : State) : Host.Outcome State Fault Refusal :=
  .next (configCommand h (formatB rsv) (some { s.cfg with softMute := v }) s)

/-- SET_CLOCK (R171): a code that names no clock option is an illegal value. -/
def execSetClock (h : Bool) (rsv : BitVec 30) (v : BitVec 2) (s : State) : Host.Outcome State Fault Refusal :=
  .next (configCommand h (formatE2 rsv) ((Clock.ofCode? v).map fun x => { s.cfg with clk := x }) s)

/-- SET_HIGH_CUT (R172). -/
def execSetHighCut (h : Bool) (rsv : BitVec 31) (v : Bool) (s : State) : Host.Outcome State Fault Refusal :=
  .next (configCommand h (formatB rsv) (some { s.cfg with highCut := v }) s)

/-- SET_NOISE_CANCEL (R173). -/
def execSetNoiseCancel (h : Bool) (rsv : BitVec 31) (v : Bool) (s : State) : Host.Outcome State Fault Refusal :=
  .next (configCommand h (formatB rsv) (some { s.cfg with snc := v }) s)

/-- SET_DEEMPHASIS (R174). -/
def execSetDeemphasis (h : Bool) (rsv : BitVec 31) (v : Deemph) (s : State) : Host.Outcome State Fault Refusal :=
  .next (configCommand h (formatB rsv) (some { s.cfg with deemph := v }) s)

/-- SET_FREQUENCY (R175): every 32-bit value is legal. -/
def execSetFrequency (h : Bool) (f : BitVec 32) (s : State) : Host.Outcome State Fault Refusal :=
  .next (configCommand h formatF32 (some { s.cfg with freq := f }) s)

/-- SET_SOUND_MODE (R176). -/
def execSetSoundMode (h : Bool) (rsv : BitVec 31) (v : Sound) (s : State) : Host.Outcome State Fault Refusal :=
  .next (configCommand h (formatB rsv) (some { s.cfg with sound := v }) s)

/-- SET_SEARCH_MODE (R177). -/
def execSetSearchMode (h : Bool) (rsv : BitVec 31) (v : Bool) (s : State) : Host.Outcome State Fault Refusal :=
  .next (configCommand h (formatB rsv) (some { s.cfg with searchMode := v }) s)

/-- SET_SEARCH_DIR (R178). -/
def execSetSearchDir (h : Bool) (rsv : BitVec 31) (v : SearchDir) (s : State) : Host.Outcome State Fault Refusal :=
  .next (configCommand h (formatB rsv) (some { s.cfg with searchDir := v }) s)

/-- SET_SEARCH_THRESHOLD (R179): a code that names no threshold is an illegal value. -/
def execSetSearchThreshold (h : Bool) (rsv : BitVec 30) (v : BitVec 2) (s : State) : Host.Outcome State Fault Refusal :=
  .next (configCommand h (formatE2 rsv) ((SearchThr.ofCode? v).map fun x => { s.cfg with searchThr := x }) s)

/-- SET_INJECTION (R180). -/
def execSetInjection (h : Bool) (rsv : BitVec 31) (v : Injection) (s : State) : Host.Outcome State Fault Refusal :=
  .next (configCommand h (formatB rsv) (some { s.cfg with inj := v }) s)

/-- SET_PORT1 (R181). -/
def execSetPort1 (h : Bool) (rsv : BitVec 31) (v : Bool) (s : State) : Host.Outcome State Fault Refusal :=
  .next (configCommand h (formatB rsv) (some { s.cfg with port1 := v }) s)

/-- SET_PORT2 (R182). -/
def execSetPort2 (h : Bool) (rsv : BitVec 31) (v : Bool) (s : State) : Host.Outcome State Fault Refusal :=
  .next (configCommand h (formatB rsv) (some { s.cfg with port2 := v }) s)

end Sys2Proof.Machine
end

