-- ==== Sys2Proof/Machine/Control.lean ====
section
/-! DEFINITION. The control command NOP (43_control.md). -/

namespace Sys2Proof.Machine

/-- NOP (43_control.md R190). -/
def execNop (h : Bool) (arg : BitVec 32) (s : State) : Host.Outcome State Fault Refusal :=
  if notHeld h && formatZ arg then .next (setLastCode codeOk s) else .next (raiseErr .reservedField s)

end Sys2Proof.Machine
end

