-- ==== Sys2Proof/Machine/Convert.lean ====
section
/-! DEFINITION. The converter commands TO_DIVISOR and FROM_DIVISOR (40_frequency.md R125, R126). CFG is not read. -/

namespace Sys2Proof.Machine

/-- TO_DIVISOR (R125): the checks in the order RESERVED_FIELD, ILLEGAL_VALUE, RANGE. -/
def execToDivisor (h rsv : Bool) (bd : Band) (c : BitVec 2) (inj : Injection) (f : BitVec 27) (s : State) :
    Host.Outcome State Fault Refusal :=
  if notHeld h && formatTD rsv then
    match Clock.ofCode? c with
    | some clk =>
      if f.toNat < bandLo bd ∨ bandHi bd < f.toNat then .next (raiseErr .range s)
      else .next (setResult (toDivisor inj (refHz s.params clk) f.toNat) s)
    | none => .next (raiseErr .illegalValue s)
  else .next (raiseErr .reservedField s)

/-- FROM_DIVISOR (R126): every 14-bit divisor is accepted. -/
def execFromDivisor (h : Bool) (rsvHi : BitVec 2) (c : BitVec 2) (inj : Injection) (rsvLo : BitVec 13) (d : BitVec 14)
    (s : State) : Host.Outcome State Fault Refusal :=
  if notHeld h && formatFD rsvHi rsvLo then
    match Clock.ofCode? c with
    | some clk => .next (setResult (fromDivisor inj (refHz s.params clk) d.toNat) s)
    | none => .next (raiseErr .illegalValue s)
  else .next (raiseErr .reservedField s)

end Sys2Proof.Machine
end

