-- ==== Sys2Proof/Machine/MuteFamily.lean ====
section
/-! DEFINITION. The mute family (42_config.md R161 to R167). -/

namespace Sys2Proof.Machine

/-- MUTE (R162). -/
def execMute (h : Bool) (arg : BitVec 32) (s : State) : Host.Outcome State Fault Refusal :=
  .next (configCommand h (formatZ arg) (some { s.cfg with mute := .both }) s)

/-- MUTE_LEFT (R163). -/
def execMuteLeft (h : Bool) (arg : BitVec 32) (s : State) : Host.Outcome State Fault Refusal :=
  .next (configCommand h (formatZ arg) (some { s.cfg with mute := .left }) s)

/-- MUTE_RIGHT (R164). -/
def execMuteRight (h : Bool) (arg : BitVec 32) (s : State) : Host.Outcome State Fault Refusal :=
  .next (configCommand h (formatZ arg) (some { s.cfg with mute := .right }) s)

/-- UNMUTE (R165). -/
def execUnmute (h : Bool) (arg : BitVec 32) (s : State) : Host.Outcome State Fault Refusal :=
  .next (configCommand h (formatZ arg) (some { s.cfg with mute := .none }) s)

/-- UNMUTE_LEFT (R166). -/
def execUnmuteLeft (h : Bool) (arg : BitVec 32) (s : State) : Host.Outcome State Fault Refusal :=
  .next (configCommand h (formatZ arg) (some { s.cfg with mute := unmuteLeftSel s.cfg.mute }) s)

/-- UNMUTE_RIGHT (R167). -/
def execUnmuteRight (h : Bool) (arg : BitVec 32) (s : State) : Host.Outcome State Fault Refusal :=
  .next (configCommand h (formatZ arg) (some { s.cfg with mute := unmuteRightSel s.cfg.mute }) s)

end Sys2Proof.Machine
end

