-- ==== Sys2Proof/Machine/Transfer.lean ====
section
/-! DEFINITION. The transfer commands UPLOAD and DOWNLOAD (41_codec.md R146, R147). -/

namespace Sys2Proof.Machine

/-- UPLOAD (R146). -/
def execUpload (h : Bool) (arg : BitVec 32) (s : State) : Host.Outcome State Fault Refusal :=
  if notHeld h && formatZ arg then .next (uploadSequence s) else .next (raiseErr .reservedField s)

/-- DOWNLOAD (R147). -/
def execDownload (h : Bool) (arg : BitVec 32) (s : State) : Host.Outcome State Fault Refusal :=
  if notHeld h && formatZ arg then .next (downloadSequence s) else .next (raiseErr .reservedField s)

end Sys2Proof.Machine
end

