-- ==== Sys2Proof/Machine/Dispatch.lean ====
section
/-! DEFINITION. One arm for each command of the map (30_encoding.md R84). -/

namespace Sys2Proof.Machine

def exec (i : Instr) (s : State) : Host.Outcome State Fault Refusal :=
  match i with
  | .nop h arg => Sys2Proof.Machine.execNop h arg s
  | .mute h arg => Sys2Proof.Machine.execMute h arg s
  | .muteLeft h arg => Sys2Proof.Machine.execMuteLeft h arg s
  | .muteRight h arg => Sys2Proof.Machine.execMuteRight h arg s
  | .unmute h arg => Sys2Proof.Machine.execUnmute h arg s
  | .unmuteLeft h arg => Sys2Proof.Machine.execUnmuteLeft h arg s
  | .unmuteRight h arg => Sys2Proof.Machine.execUnmuteRight h arg s
  | .setStandby h rsv v => Sys2Proof.Machine.execSetStandby h rsv v s
  | .setBand h rsv v => Sys2Proof.Machine.execSetBand h rsv v s
  | .setSoftMute h rsv v => Sys2Proof.Machine.execSetSoftMute h rsv v s
  | .setClock h rsv v => Sys2Proof.Machine.execSetClock h rsv v s
  | .setHighCut h rsv v => Sys2Proof.Machine.execSetHighCut h rsv v s
  | .setNoiseCancel h rsv v => Sys2Proof.Machine.execSetNoiseCancel h rsv v s
  | .setDeemphasis h rsv v => Sys2Proof.Machine.execSetDeemphasis h rsv v s
  | .setFrequency h f => Sys2Proof.Machine.execSetFrequency h f s
  | .setSoundMode h rsv v => Sys2Proof.Machine.execSetSoundMode h rsv v s
  | .setSearchMode h rsv v => Sys2Proof.Machine.execSetSearchMode h rsv v s
  | .setSearchDir h rsv v => Sys2Proof.Machine.execSetSearchDir h rsv v s
  | .setSearchThreshold h rsv v => Sys2Proof.Machine.execSetSearchThreshold h rsv v s
  | .setInjection h rsv v => Sys2Proof.Machine.execSetInjection h rsv v s
  | .setPort1 h rsv v => Sys2Proof.Machine.execSetPort1 h rsv v s
  | .setPort2 h rsv v => Sys2Proof.Machine.execSetPort2 h rsv v s
  | .upload h arg => Sys2Proof.Machine.execUpload h arg s
  | .download h arg => Sys2Proof.Machine.execDownload h arg s
  | .toDivisor h rsv bd c inj f => Sys2Proof.Machine.execToDivisor h rsv bd c inj f s
  | .fromDivisor h rsvHi c inj rsvLo d => Sys2Proof.Machine.execFromDivisor h rsvHi c inj rsvLo d s

end Sys2Proof.Machine
end

