-- ==== Sys2Proof/Machine/ReadPort.lean ====
section
/-! DEFINITION. The host's register read port (10_state.md R55): the register map, and which bits are unspecified while a
valid bit is 0 (R49, R52, R53). -/

namespace Sys2Proof.Machine

/-- Register 1, CFG_CTRL. -/
def cfgCtrlWord (c : Cfg) : Word :=
  0#14 ++ BitVec.ofBool c.port2 ++ BitVec.ofBool c.port1 ++ BitVec.ofBool c.deemph.bit ++ c.clk.code ++
    BitVec.ofBool c.snc ++ BitVec.ofBool c.highCut ++ BitVec.ofBool c.sound.bit ++ BitVec.ofBool c.inj.bit ++
    c.searchThr.code ++ BitVec.ofBool c.searchDir.bit ++ BitVec.ofBool c.searchMode ++ BitVec.ofBool c.softMute ++
    c.mute.code ++ BitVec.ofBool c.standby ++ BitVec.ofBool c.band.bit

/-- Registers 2 and 6: the first four bytes of a frame, byte 0 at the top. -/
def frameLoWord (f : Frame) : Word := f.b0 ++ f.b1 ++ f.b2 ++ f.b3

/-- Register 3, WF_HI. -/
def wfHiWord (s : State) : Word := BitVec.ofBool s.wfValid ++ 0#9 ++ s.divLast ++ s.wf.b4

/-- Register 4, STATUS0. -/
def status0Word (s : State) : Word :=
  BitVec.ofBool s.statusValid ++ 0#10 ++ s.status.div ++ s.status.level ++ BitVec.ofBool s.status.stereo ++
    BitVec.ofBool s.status.blf ++ BitVec.ofBool s.status.ready

/-- Register 7, STATUS_RAW_HI. -/
def statusRawHiWord (s : State) : Word := BitVec.ofBool s.statusValid ++ 0#23 ++ s.status.raw.b4

/-- Register 9, ERRSTAT. -/
def errStatWord (s : State) : Word :=
  BitVec.ofBool s.resultValid ++ 0#24 ++ s.lastCode ++ s.errFirst ++ BitVec.ofBool s.err

/-- The word register `n` holds. -/
def regWord (s : State) (n : BitVec 4) : Word :=
  match n.toNat with
  | 0 => s.cfg.freq
  | 1 => cfgCtrlWord s.cfg
  | 2 => frameLoWord s.wf
  | 3 => wfHiWord s
  | 4 => status0Word s
  | 5 => s.status.freq
  | 6 => frameLoWord s.status.raw
  | 7 => statusRawHiWord s
  | 8 => s.result
  | 9 => errStatWord s
  | _ => 0#32

/-- The bits of register `n` that are unspecified now. The valid bits and the bits that read 0 never are. -/
def unspecifiedBits (s : State) (n : BitVec 4) : Word :=
  match n.toNat with
  | 2 => if s.wfValid then 0#32 else 0xFFFFFFFF#32
  | 3 => if s.wfValid then 0#32 else 0x003FFFFF#32
  | 4 => if s.statusValid then 0#32 else 0x001FFFFF#32
  | 5 => if s.statusValid then 0#32 else 0xFFFFFFFF#32
  | 6 => if s.statusValid then 0#32 else 0xFFFFFFFF#32
  | 7 => if s.statusValid then 0#32 else 0x000000FF#32
  | 8 => if s.resultValid then 0#32 else 0xFFFFFFFF#32
  | _ => 0#32

/-- The bits of register `n` that have a value now; the others read here as 0. -/
def specifiedWord (s : State) (n : BitVec 4) : Word := regWord s n &&& ~~~unspecifiedBits s n

/-- What a run shows at its end (70_reset_and_hazards.md R251): for each register its specified bits and which bits are
unspecified, and the trace. -/
structure Observation where
  registers : List (Word × Word)
  trace     : List TraceEntry
deriving DecidableEq, Repr

/-- The observation of a state in which the host issues no further command (R251). -/
def observe (s : State) : Observation where
  registers := (List.range 16).map fun n => (specifiedWord s (BitVec.ofNat 4 n), unspecifiedBits s (BitVec.ofNat 4 n))
  trace     := s.trace

/-- A host read of register `n` of which the host uses the bits of `mask`: it faults if one of them is unspecified, as
10_state.md R49, R52, R53 and R55, 60_exceptions.md R213, 70_reset_and_hazards.md R233, 92_eei_decisions.md D18 and
93_implementation_defined.md I5 say, and otherwise returns their values and changes nothing of the block. -/
def hostRead (n : BitVec 4) (mask : Word) (s : State) : Host.Outcome State Fault Refusal :=
  if unspecifiedBits s n &&& mask = 0#32 then
    .next { s with replies := s.replies ++ [⟨n, mask, regWord s n &&& mask⟩] }
  else .fault (.unspecifiedRead n)

end Sys2Proof.Machine
end

