-- ==== Sys2Proof/Machine/Port.lean ====
section
/-! DEFINITION. The block's ports: what one event of the host does (43_control.md R191, 60_exceptions.md R213), and how a
command word is put before the block. -/

namespace Sys2Proof.Machine

/-- The command step (43_control.md R191): a word that selects no row is refused with ILLEGAL_OPCODE, every other word
runs its command. -/
def runCommand (w : CommandWord) (s : State) : Host.Outcome State Fault Refusal :=
  match decodeWord w with
  | .command i => exec i s
  | .reject _ => .next (raiseErr .illegalOpcode s)

/-- One event of the host. -/
def hostEvent (e : HostEvent) (s : State) : Host.Outcome State Fault Refusal :=
  match e with
  | .reset => .next (applyReset s)
  | .command w => runCommand w s
  | .readReg n mask => hostRead n mask s

/-- The host's next event is taken off its inputs and happens; a block that has no input waits (assumption log 2). -/
def takeEvent (s : State) : Host.Outcome State Fault Refusal :=
  match s.host with
  | [] => .next s
  | e :: rest => hostEvent e { s with host := rest }

/-- The host's inputs with the command word of value `w` put before them. -/
def presentWord (nbits w : Nat) (s : State) : State :=
  { s with host := .command (BitVec.ofNat 40 (w % 2 ^ nbits)) :: s.host }

end Sys2Proof.Machine
end

