-- ==== Sys2Proof/Machine/Step.lean ====
section
/-! DEFINITION. One step of the machine (43_control.md R191). -/

namespace Sys2Proof.Machine

/-- One step: the host's next event happens completely (00_scope.md R6). -/
def step (s : State) : Host.Outcome State Fault Refusal := takeEvent s

/-- `s` with the command of table value `w` as the host's next input, so that the next step runs it (assumption
log 11). -/
def State.withFetchWord (s : State) (nbits w : Nat) : State := presentWord nbits w s

end Sys2Proof.Machine
end

