-- ==== Sys2Proof/Machine/Asm.lean ====
section
/-! DEFINITION. The assembler syntax of 30_encoding.md R88, as abstract syntax: a line is a mnemonic, its `.H` suffix and
its operands. AsmText.lean reads a line's characters. -/

namespace Sys2Proof.Machine

/-- The mnemonics of the map (30_encoding.md R84). -/
inductive Mnemonic where
  | nop | mute | muteLeft | muteRight | unmute | unmuteLeft | unmuteRight
  | setStandby | setBand | setSoftMute | setClock | setHighCut | setNoiseCancel | setDeemphasis | setFrequency
  | setSoundMode | setSearchMode | setSearchDir | setSearchThreshold | setInjection | setPort1 | setPort2
  | upload | download | toDivisor | fromDivisor
deriving DecidableEq, Repr

/-- The names an operand may be written with. -/
inductive OperandName where
  | on | off | usEu | japan | stereo | mono | up | down | high | low | de50 | de75
  | xtal32k | clk13m | clk6m5 | tlow | tmid | thigh
deriving DecidableEq, Repr

inductive Operand where
  | num (n : Nat)
  | name (x : OperandName)
deriving DecidableEq, Repr

/-- `MNEMONIC[.H] [operand {, operand}]`. -/
structure AsmLine where
  mnemonic : Mnemonic
  hold     : Bool
  operands : List Operand
deriving DecidableEq, Repr

/-- A B-format value: 0, 1, ON, OFF, or a name of its own field. -/
def bitOperand (own : OperandName → Option Bool) : Operand → Option Bool
  | .num n => if n = 0 then some false else if n = 1 then some true else none
  | .name x => if x = .on then some true else if x = .off then some false else own x

def flagName (_ : OperandName) : Option Bool := none

def bandName (x : OperandName) : Option Bool :=
  if x = .usEu then some Band.usEu.bit else if x = .japan then some Band.japan.bit else none

def deemphName (x : OperandName) : Option Bool :=
  if x = .de50 then some Deemph.de50.bit else if x = .de75 then some Deemph.de75.bit else none

def soundName (x : OperandName) : Option Bool :=
  if x = .stereo then some Sound.stereo.bit else if x = .mono then some Sound.mono.bit else none

def dirName (x : OperandName) : Option Bool :=
  if x = .up then some SearchDir.up.bit else if x = .down then some SearchDir.down.bit else none

def injName (x : OperandName) : Option Bool :=
  if x = .high then some Injection.high.bit else if x = .low then some Injection.low.bit else none

/-- A decimal number that fits a field of width `w`. -/
def numOperand (w : Nat) : Operand → Option (BitVec w)
  | .num n => if n < 2 ^ w then some (BitVec.ofNat w n) else none
  | .name _ => none

/-- An E2 value: a name of its own field or a number. -/
def clockOperand : Operand → Option (BitVec 2)
  | .num n => numOperand 2 (.num n)
  | .name x =>
    if x = .xtal32k then some Clock.xtal32k.code
    else if x = .clk13m then some Clock.clk13m.code
    else if x = .clk6m5 then some Clock.clk6m5.code
    else none

def thresholdOperand : Operand → Option (BitVec 2)
  | .num n => numOperand 2 (.num n)
  | .name x =>
    if x = .tlow then some SearchThr.tlow.code
    else if x = .tmid then some SearchThr.tmid.code
    else if x = .thigh then some SearchThr.thigh.code
    else none

def noOperand (i : Instr) : List Operand → Option Instr
  | [] => some i
  | _ :: _ => none

def oneOperand {α : Type} (read : Operand → Option α) (mk : α → Instr) : List Operand → Option Instr
  | [x] => (read x).map mk
  | _ => none

/-- `TO_DIVISOR f, inj, clk, band`. R88 only names these operands; that f is a decimal number, that inj and band are
written as B-format values (a name of the field, ON, OFF, 0 or 1) and clk as an E2 value (a name or a number below 4) is
the model's choice (assumption log 13). -/
def toDivisorOperands (h : Bool) : List Operand → Option Instr
  | [f, inj, clk, band] => do
    let f ← numOperand 27 f
    let i ← bitOperand injName inj
    let c ← clockOperand clk
    let b ← bitOperand bandName band
    some (.toDivisor h false (Band.ofBit b) c (Injection.ofBit i) f)
  | _ => none

/-- `FROM_DIVISOR d, inj, clk`, its operands in the forms of `toDivisorOperands` (the model's choice: assumption
log 13). -/
def fromDivisorOperands (h : Bool) : List Operand → Option Instr
  | [d, inj, clk] => do
    let d ← numOperand 14 d
    let i ← bitOperand injName inj
    let c ← clockOperand clk
    some (.fromDivisor h 0#2 c (Injection.ofBit i) 0#13 d)
  | _ => none

/-- The command a line stands for; none for a line the syntax does not have. -/
def assemble (l : AsmLine) : Option Instr :=
  match l.mnemonic with
  | .nop => noOperand (.nop l.hold 0#32) l.operands
  | .mute => noOperand (.mute l.hold 0#32) l.operands
  | .muteLeft => noOperand (.muteLeft l.hold 0#32) l.operands
  | .muteRight => noOperand (.muteRight l.hold 0#32) l.operands
  | .unmute => noOperand (.unmute l.hold 0#32) l.operands
  | .unmuteLeft => noOperand (.unmuteLeft l.hold 0#32) l.operands
  | .unmuteRight => noOperand (.unmuteRight l.hold 0#32) l.operands
  | .setStandby => oneOperand (bitOperand flagName) (.setStandby l.hold 0#31) l.operands
  | .setBand => oneOperand (bitOperand bandName) (fun v => .setBand l.hold 0#31 (Band.ofBit v)) l.operands
  | .setSoftMute => oneOperand (bitOperand flagName) (.setSoftMute l.hold 0#31) l.operands
  | .setClock => oneOperand clockOperand (.setClock l.hold 0#30) l.operands
  | .setHighCut => oneOperand (bitOperand flagName) (.setHighCut l.hold 0#31) l.operands
  | .setNoiseCancel => oneOperand (bitOperand flagName) (.setNoiseCancel l.hold 0#31) l.operands
  | .setDeemphasis => oneOperand (bitOperand deemphName) (fun v => .setDeemphasis l.hold 0#31 (Deemph.ofBit v)) l.operands
  | .setFrequency => oneOperand (numOperand 32) (.setFrequency l.hold) l.operands
  | .setSoundMode => oneOperand (bitOperand soundName) (fun v => .setSoundMode l.hold 0#31 (Sound.ofBit v)) l.operands
  | .setSearchMode => oneOperand (bitOperand flagName) (.setSearchMode l.hold 0#31) l.operands
  | .setSearchDir => oneOperand (bitOperand dirName) (fun v => .setSearchDir l.hold 0#31 (SearchDir.ofBit v)) l.operands
  | .setSearchThreshold => oneOperand thresholdOperand (.setSearchThreshold l.hold 0#30) l.operands
  | .setInjection => oneOperand (bitOperand injName) (fun v => .setInjection l.hold 0#31 (Injection.ofBit v)) l.operands
  | .setPort1 => oneOperand (bitOperand flagName) (.setPort1 l.hold 0#31) l.operands
  | .setPort2 => oneOperand (bitOperand flagName) (.setPort2 l.hold 0#31) l.operands
  | .upload => noOperand (.upload l.hold 0#32) l.operands
  | .download => noOperand (.download l.hold 0#32) l.operands
  | .toDivisor => toDivisorOperands l.hold l.operands
  | .fromDivisor => fromDivisorOperands l.hold l.operands

/-- An operand that is a number, from a bit. -/
def bitNum (b : Bool) : Operand := .num b.toNat

/-- A line for a command, its operands written as numbers; the reserved bits have no place in a line. -/
def disassemble : Instr → AsmLine
  | .nop h _ => ⟨.nop, h, []⟩
  | .mute h _ => ⟨.mute, h, []⟩
  | .muteLeft h _ => ⟨.muteLeft, h, []⟩
  | .muteRight h _ => ⟨.muteRight, h, []⟩
  | .unmute h _ => ⟨.unmute, h, []⟩
  | .unmuteLeft h _ => ⟨.unmuteLeft, h, []⟩
  | .unmuteRight h _ => ⟨.unmuteRight, h, []⟩
  | .setStandby h _ v => ⟨.setStandby, h, [bitNum v]⟩
  | .setBand h _ v => ⟨.setBand, h, [bitNum v.bit]⟩
  | .setSoftMute h _ v => ⟨.setSoftMute, h, [bitNum v]⟩
  | .setClock h _ v => ⟨.setClock, h, [.num v.toNat]⟩
  | .setHighCut h _ v => ⟨.setHighCut, h, [bitNum v]⟩
  | .setNoiseCancel h _ v => ⟨.setNoiseCancel, h, [bitNum v]⟩
  | .setDeemphasis h _ v => ⟨.setDeemphasis, h, [bitNum v.bit]⟩
  | .setFrequency h f => ⟨.setFrequency, h, [.num f.toNat]⟩
  | .setSoundMode h _ v => ⟨.setSoundMode, h, [bitNum v.bit]⟩
  | .setSearchMode h _ v => ⟨.setSearchMode, h, [bitNum v]⟩
  | .setSearchDir h _ v => ⟨.setSearchDir, h, [bitNum v.bit]⟩
  | .setSearchThreshold h _ v => ⟨.setSearchThreshold, h, [.num v.toNat]⟩
  | .setInjection h _ v => ⟨.setInjection, h, [bitNum v.bit]⟩
  | .setPort1 h _ v => ⟨.setPort1, h, [bitNum v]⟩
  | .setPort2 h _ v => ⟨.setPort2, h, [bitNum v]⟩
  | .upload h _ => ⟨.upload, h, []⟩
  | .download h _ => ⟨.download, h, []⟩
  | .toDivisor h _ bd c i f => ⟨.toDivisor, h, [.num f.toNat, bitNum i.bit, .num c.toNat, bitNum bd.bit]⟩
  | .fromDivisor h _ c i _ d => ⟨.fromDivisor, h, [.num d.toNat, bitNum i.bit, .num c.toNat]⟩

end Sys2Proof.Machine
end

