-- ==== Sys2Proof/Machine/AsmText.lean ====
section
/-! DEFINITION. The assembler's text form (30_encoding.md R88): one command a line, read into the abstract lines of
Asm.lean. What R88 does not say of the characters is assumption log 13. -/

namespace Sys2Proof.Machine

/-- The names of the map (30_encoding.md R84), as written. The spec does not say whether a pseudo-instruction of R89 may
stand as a line of text; that it may not, and is only the list of events of HostProcedures.lean, is the model's choice
(assumption log 13). -/
def mnemonicNames : List (List Char × Mnemonic) :=
  [("NOP".toList, .nop), ("MUTE".toList, .mute), ("MUTE_LEFT".toList, .muteLeft), ("MUTE_RIGHT".toList, .muteRight),
    ("UNMUTE".toList, .unmute), ("UNMUTE_LEFT".toList, .unmuteLeft), ("UNMUTE_RIGHT".toList, .unmuteRight),
    ("SET_STANDBY".toList, .setStandby), ("SET_BAND".toList, .setBand), ("SET_SOFT_MUTE".toList, .setSoftMute),
    ("SET_CLOCK".toList, .setClock), ("SET_HIGH_CUT".toList, .setHighCut)] ++
  [("SET_NOISE_CANCEL".toList, .setNoiseCancel), ("SET_DEEMPHASIS".toList, .setDeemphasis),
    ("SET_FREQUENCY".toList, .setFrequency), ("SET_SOUND_MODE".toList, .setSoundMode),
    ("SET_SEARCH_MODE".toList, .setSearchMode), ("SET_SEARCH_DIR".toList, .setSearchDir),
    ("SET_SEARCH_THRESHOLD".toList, .setSearchThreshold), ("SET_INJECTION".toList, .setInjection),
    ("SET_PORT1".toList, .setPort1), ("SET_PORT2".toList, .setPort2), ("UPLOAD".toList, .upload),
    ("DOWNLOAD".toList, .download), ("TO_DIVISOR".toList, .toDivisor), ("FROM_DIVISOR".toList, .fromDivisor)]

/-- The operand names of R88, as written. -/
def operandNames : List (List Char × OperandName) :=
  [("ON".toList, .on), ("OFF".toList, .off), ("US_EU".toList, .usEu), ("JAPAN".toList, .japan),
    ("STEREO".toList, .stereo), ("MONO".toList, .mono), ("UP".toList, .up), ("DOWN".toList, .down),
    ("HIGH".toList, .high), ("LOW".toList, .low), ("DE50".toList, .de50), ("DE75".toList, .de75),
    ("XTAL_32K".toList, .xtal32k), ("CLK_13M".toList, .clk13m), ("CLK_6M5".toList, .clk6m5),
    ("TLOW".toList, .tlow), ("TMID".toList, .tmid), ("THIGH".toList, .thigh)]

def lookupName {α : Type} (table : List (List Char × α)) (name : List Char) : Option α :=
  table.findSome? fun row => if row.1 == name then some row.2 else none

/-- A space or a tab. -/
def isBlank (c : Char) : Bool := c == ' ' || c == '\t'

/-- The text without blanks at its two ends. -/
def trimBlanks (cs : List Char) : List Char :=
  ((cs.dropWhile isBlank).reverse.dropWhile isBlank).reverse

/-- The parts of a text between commas. -/
def splitCommas : List Char → List (List Char)
  | [] => [[]]
  | c :: rest =>
    if c == ',' then [] :: splitCommas rest
    else
      match splitCommas rest with
      | [] => [[c]]
      | part :: parts => (c :: part) :: parts

/-- The value of a decimal number; none for a text that is not all digits, or is empty. R88 calls only SET_FREQUENCY's
number decimal; that every number of a line is, and that a literal in another base is malformed, is the model's choice
(assumption log 13). -/
def readDecimal (cs : List Char) : Option Nat :=
  if cs.isEmpty || !cs.all Char.isDigit then none
  else some (cs.foldl (fun n c => 10 * n + (c.toNat - '0'.toNat)) 0)

/-- An operand: a decimal number or one of the names. -/
def readOperand (cs : List Char) : Option Operand :=
  match readDecimal cs with
  | some n => some (.num n)
  | none => (lookupName operandNames cs).map .name

/-- The operands of a line, separated by commas; the empty text has none. -/
def readOperands (cs : List Char) : Option (List Operand) :=
  if cs.isEmpty then some [] else (splitCommas cs).mapM fun part => readOperand (trimBlanks part)

/-- `MNEMONIC[.H]`: the name and whether the suffix stands after it. -/
def splitHold (cs : List Char) : List Char × Bool :=
  match cs.reverse with
  | 'H' :: '.' :: rest => (rest.reverse, true)
  | _ => (cs, false)

/-- What a line of assembler text says. -/
inductive TextLine where
  /-- Nothing but blanks and a comment. -/
  | empty
  | command (i : Instr)
  | malformed
deriving DecidableEq, Repr

/-- The line that a text without its comment is written for. -/
def readAsmLine (cs : List Char) : Option AsmLine := do
  let head := splitHold (cs.takeWhile fun c => !isBlank c)
  let mnemonic ← lookupName mnemonicNames head.1
  let operands ← readOperands (trimBlanks (cs.dropWhile fun c => !isBlank c))
  some ⟨mnemonic, head.2, operands⟩

/-- One line of assembler text; a comment starts with a semicolon. -/
def readText (line : String) : TextLine :=
  let cs := trimBlanks (line.toList.takeWhile fun c => c != ';')
  if cs.isEmpty then .empty
  else
    match (readAsmLine cs).bind assemble with
    | some i => .command i
    | none => .malformed

end Sys2Proof.Machine
end

