-- ==== Sys2Proof/Machine/HostProcedures.lean ====
section
/-! DEFINITION. What the spec gives as host software over the block's commands: the pseudo-instructions
(30_encoding.md R89), the construct sequence (70_reset_and_hazards.md R232) and the search procedure (R246). They are no
part of the block (00_scope.md R4): they only issue events and look at registers. -/

namespace Sys2Proof.Machine

/-- The event that issues a command. -/
def commandEvent (i : Instr) : HostEvent := .command (encode i)

/-! ## Pseudo-instructions (30_encoding.md R89) -/

def standbyEvents (on : Bool) : List HostEvent := [commandEvent (.setStandby false 0#31 on)]
def softMuteEvents (on : Bool) : List HostEvent := [commandEvent (.setSoftMute false 0#31 on)]
def highCutEvents (on : Bool) : List HostEvent := [commandEvent (.setHighCut false 0#31 on)]
def noiseCancelEvents (on : Bool) : List HostEvent := [commandEvent (.setNoiseCancel false 0#31 on)]
def monoEvents : List HostEvent := [commandEvent (.setSoundMode false 0#31 .mono)]
def stereoEvents : List HostEvent := [commandEvent (.setSoundMode false 0#31 .stereo)]
def setFrequencyEvents (f : BitVec 32) : List HostEvent := [commandEvent (.setFrequency false f)]

/-- `get_frequency`: DOWNLOAD, then STATUS_FREQ. -/
def getFrequencyEvents : List HostEvent := [commandEvent (.download false 0#32), .readReg 5#4 0xFFFFFFFF#32]

/-- `get_signal_level`: DOWNLOAD, then STATUS0[6:3]. -/
def getSignalLevelEvents : List HostEvent := [commandEvent (.download false 0#32), .readReg 4#4 0x00000078#32]

/-- `get_sound_mode`: DOWNLOAD, then STATUS0[2]. -/
def getSoundModeEvents : List HostEvent := [commandEvent (.download false 0#32), .readReg 4#4 0x00000004#32]

/-- `construct f, band, mode` (also 70_reset_and_hazards.md R232). -/
def constructEvents (f : BitVec 32) (b : Band) (m : Sound) : List HostEvent :=
  [.reset, commandEvent (.setFrequency true f), commandEvent (.setBand true 0#31 b),
    commandEvent (.setSoundMode true 0#31 m), commandEvent (.upload false 0#32)]

/-! ## The search procedure (70_reset_and_hazards.md R246) -/

/-- How a search ends. -/
inductive SearchResult where
  | success
  | failure
  | transportError
  /-- The poll bound ran out before the tuner was ready; R243 asks the host to bound the wait (assumption log 14). -/
  | unfinished
deriving DecidableEq, Repr

/-- The state after the host has issued one command (R246 issues only commands, which always complete). -/
def issue (i : Instr) (s : State) : State :=
  match runCommand (encode i) s with
  | .next t => t
  | .fault _ => s
  | .refused _ => s

/-- `LAST_CODE = 5`. -/
def transportFailed (s : State) : Bool := s.lastCode == codeTransport

/-- `repeat DOWNLOAD until LAST_CODE = 5 or STATUS.READY = 1`, at most `n` times; the Bool says whether it ended so. -/
def pollReady : Nat → State → State × Bool
  | 0, s => (s, false)
  | n + 1, s =>
    let t := issue (.download false 0#32) s
    if transportFailed t || t.status.ready then (t, true) else pollReady n t

/-- Step 1: the start frequency, the threshold and the direction are recorded, and MUTE makes the one upload. -/
def searchBegin (dir : SearchDir) (start : BitVec 32) (thr : SearchThr) (s : State) : State :=
  issue (.mute false 0#32) (issue (.setSearchDir true 0#31 dir)
    (issue (.setSearchThreshold true 0#30 thr.code) (issue (.setFrequency true start) s)))

/-- The start is beyond the band's limit in the search's direction. -/
def beyondEdge (dir : SearchDir) (start : BitVec 32) (b : Band) : Bool :=
  match dir with
  | .up => decide (bandHi b < start.toNat)
  | .down => decide (start.toNat < bandLo b)

/-- `100000 * STATUS.FREQ`, as a 32-bit argument. -/
def statusHz (s : State) : Int := 100000 * s.status.freq.toInt

/-- Step 2a: one step of 100 000 Hz from the decoded frequency, in the search's direction. -/
def nextFreq (dir : SearchDir) (s : State) : BitVec 32 :=
  match dir with
  | .up => BitVec.ofInt 32 (statusHz s + 100000)
  | .down => BitVec.ofInt 32 (statusHz s - 100000)

/-- Step 2c: the band limit was reached. -/
def searchBandLimit (s : State) : SearchResult × State :=
  let a := issue (.setSearchMode false 0#31 false) s
  if transportFailed a then (.transportError, a)
  else
    let b := issue (.unmute false 0#32) a
    if transportFailed b then (.transportError, b) else (.failure, b)

/-- Step 2d: a station was found. -/
def searchFound (s : State) : SearchResult × State :=
  let a := issue (.setSearchMode true 0#31 false) s
  let b := issue (.setFrequency true (BitVec.ofInt 32 (statusHz a))) a
  let c := issue (.unmute false 0#32) b
  if transportFailed c then (.transportError, c) else (.success, c)

/-- Step 2b on: the poll, then step 2c or 2d. R246 has no exit for a bound that runs out; that the host then issues nothing
further, so that CFG.MUTE = BOTH and CFG.SEARCH_MODE = 1 stay as the search set them, is the model's choice (assumption
log 14). -/
def searchPoll (polls : Nat) (s : State) : SearchResult × State :=
  let (t, ended) := pollReady polls s
  if !ended then (.unfinished, t)
  else if transportFailed t then (.transportError, t)
  else if t.status.blf then searchBandLimit t
  else searchFound t

/-- Step 2: read, step, command the search, poll. -/
def searchSeek (dir : SearchDir) (polls : Nat) (s : State) : SearchResult × State :=
  let a := issue (.download false 0#32) s
  if transportFailed a then (.transportError, a)
  else
    let b := issue (.setSearchMode false 0#31 true) (issue (.setFrequency true (nextFreq dir a)) a)
    if transportFailed b then (.transportError, b) else searchPoll polls b

/-- `search(dir, start_hz, thr)` with at most `polls` polls. -/
def search (dir : SearchDir) (start : BitVec 32) (thr : SearchThr) (polls : Nat) (s : State) : SearchResult × State :=
  let a := searchBegin dir start thr s
  if transportFailed a then (.transportError, a)
  else if beyondEdge dir start a.cfg.band then (.failure, issue (.unmute false 0#32) a)
  else searchSeek dir polls a

end Sys2Proof.Machine
end

