-- ==== Sys2Proof/Safety.lean ====
section
/-! DEFINITION. The terms claims are stated in: the spec's own descriptions of the conversions, the frames and the
registers, written as relations and tables beside the functions the machine computes with, and the invariant of the
machine. -/

namespace Sys2Proof.Machine

/-! ## The converter, as relations -/

/-- `f` is inside the band's limits, both included (00_scope.md R7). -/
def InBand (b : Band) (f : Nat) : Prop :=
  match b with
  | .usEu => 87500000 ≤ f ∧ f ≤ 108000000
  | .japan => 76000000 ≤ f ∧ f ≤ 91000000

/-- `fc` is `f` clamped into the band (40_frequency.md R120): it is inside, it is `f` if `f` is inside, and otherwise it
is the limit `f` lies beyond. -/
def ClampedTo (b : Band) (f fc : Nat) : Prop :=
  InBand b fc ∧ (InBand b f → fc = f) ∧
    (f < fc → ∀ x, InBand b x → fc ≤ x) ∧ (fc < f → ∀ x, InBand b x → x ≤ fc)

/-- REF_HZ (00_scope.md R7, R8). -/
def RefOf (p : Params) (c : Clock) (r : Nat) : Prop :=
  match c with
  | .xtal32k => r = 32768
  | .clk13m => r = p.ref13M.hz
  | .clk6m5 => r = p.ref6M5.hz

/-- `num` of 40_frequency.md R121. -/
def numerator (inj : Injection) (f : Nat) : Int :=
  match inj with
  | .high => 4 * ((f : Int) + 225000)
  | .low => 4 * ((f : Int) - 225000)

/-- `d` is the greatest integer with `d * ref <= num` (R121, 00_scope.md R16). -/
def IsDivisorOf (inj : Injection) (ref f : Nat) (d : Int) : Prop :=
  d * ref ≤ numerator inj f ∧ numerator inj f < (d + 1) * ref

/-- `num4` of 40_frequency.md R123. -/
def numerator4 (inj : Injection) (ref d : Nat) : Int :=
  match inj with
  | .high => (d : Int) * ref - 900000
  | .low => (d : Int) * ref + 900000

/-- `q` is the integer nearest to `num4 / 400000`, ties away from zero (R123, 00_scope.md R16). -/
def IsFrequencyOf (inj : Injection) (ref d : Nat) (q : Int) : Prop :=
  2 * |400000 * q - numerator4 inj ref d| ≤ 400000 ∧
    (2 * |400000 * q - numerator4 inj ref d| = 400000 → |numerator4 inj ref d| < |400000 * q|)

/-! ## The frames, bit by bit -/

/-- The write frame of configuration `c` and divisor `d` (30_encoding.md R90 to R100), one line for each row of R90. -/
structure FrameCarries (p : Params) (c : Cfg) (d : BitVec 14) (f : Frame) : Prop where
  mute   : f.b0.getLsbD 7 = decide (c.mute = .both)
  sm     : f.b0.getLsbD 6 = c.searchMode
  pllHi  : f.b0.extractLsb' 0 6 = d.extractLsb' 8 6
  pllLo  : f.b1 = d.extractLsb' 0 8
  sud    : f.b2.getLsbD 7 = decide (c.searchDir = .up)
  ssl    : f.b2.extractLsb' 5 2 = (match c.searchThr with | .tlow => 0b01#2 | .tmid => 0b10#2 | .thigh => 0b11#2)
  hlsi   : f.b2.getLsbD 4 = decide (c.inj = .high)
  ms     : f.b2.getLsbD 3 = decide (c.sound = .mono)
  mr     : f.b2.getLsbD 2 = decide (c.mute = .right ∨ (p.muteBothLR = true ∧ c.mute = .both))
  ml     : f.b2.getLsbD 1 = decide (c.mute = .left ∨ (p.muteBothLR = true ∧ c.mute = .both))
  swp1   : f.b2.getLsbD 0 = c.port1
  swp2   : f.b3.getLsbD 7 = c.port2
  stby   : f.b3.getLsbD 6 = c.standby
  bl     : f.b3.getLsbD 5 = decide (c.band = .japan)
  xtal   : f.b3.getLsbD 4 = decide (c.clk = .xtal32k)
  smute  : f.b3.getLsbD 3 = c.softMute
  hcc    : f.b3.getLsbD 2 = c.highCut
  snc    : f.b3.getLsbD 1 = c.snc
  si     : f.b3.getLsbD 0 = (match p.si with | .zero => false | .searchMode => c.searchMode)
  pllref : f.b4.getLsbD 7 = decide (c.clk = .clk6m5)
  dtc    : f.b4.getLsbD 6 = decide (c.deemph = .de75)
  zero   : f.b4.extractLsb' 0 6 = 0b000000#6

/-- The fields of STATUS for the read frame `f`, decoded with the injection side `inj` and the clock selector `c`
(30_encoding.md R101 to R106, 41_codec.md R143, 10_state.md R51). -/
structure StatusOf (p : Params) (inj : Injection) (c : Clock) (f : Frame) (st : Status) : Prop where
  ready  : st.ready = f.b0.getLsbD 7
  blf    : st.blf = f.b0.getLsbD 6
  divHi  : st.div.extractLsb' 8 6 = f.b0.extractLsb' 0 6
  divLo  : st.div.extractLsb' 0 8 = f.b1
  stereo : st.stereo = f.b2.getLsbD 7
  level  : st.level = f.b3.extractLsb' 4 4
  freq   : ∀ ref, RefOf p c ref → IsFrequencyOf inj ref st.div.toNat st.freq.toInt
  raw    : st.raw = f

/-! ## What the commands do -/

/-- The state after a refusal with code `c` (60_exceptions.md R203). -/
def refused (c : BitVec 3) (s : State) : State :=
  { s with
    err      := true
    errFirst := if s.err then s.errFirst else c
    lastCode := c }

/-- The code with which a command is refused, if it is (60_exceptions.md R202): the hold bit and the reserved bits first,
then the illegal values, then the range of TO_DIVISOR. -/
def refusalCode (i : Instr) : Option (BitVec 3) :=
  if (i.hold && !i.isConfig) || !i.reservedZero then some 2#3
  else if !i.valuesLegal then some 3#3
  else
    match i with
    | .toDivisor _ _ .usEu _ _ f => if 87500000 ≤ f.toNat && f.toNat ≤ 108000000 then none else some 4#3
    | .toDivisor _ _ .japan _ _ f => if 76000000 ≤ f.toNat && f.toNat ≤ 91000000 then none else some 4#3
    | _ => none

/-- `t` is the state after the upload sequence has run from `s` (41_codec.md R144): the frame of the clamped frequency's
divisor is in WF and on the trace with the environment's answer, and nothing the rule does not name has changed. The
three values are fixed by the first four conditions. How `env` gives and loses the answer is assumption log 3. -/
def Uploaded (s t : State) : Prop :=
  ∃ (ref fc : Nat) (d : BitVec 14) (f : Frame),
    RefOf s.params s.cfg.clk ref ∧
    ClampedTo s.cfg.band s.cfg.freq.toNat fc ∧
    IsDivisorOf s.cfg.inj ref fc d.toNat ∧
    FrameCarries s.params s.cfg d f ∧
    t = { s with
          cfg      := if s.params.clampWriteback then { s.cfg with freq := BitVec.ofNat 32 fc } else s.cfg
          wf       := f
          divLast  := d
          wfValid  := true
          trace    := s.trace ++ [.write 0x60#7 f (nextWriteAnswer s.env)]
          env      := afterWriteAnswer s.env
          lastCode := if nextWriteAnswer s.env = .ok then 0#3 else 5#3 }

/-- `t` is the state after a configuration command with hold bit `h` that writes the configuration `c`
(42_config.md R160): with H = 1 nothing but CFG and LAST_CODE changes, with H = 0 the upload sequence follows. -/
def Configured (h : Bool) (c : Cfg) (s t : State) : Prop :=
  if h then t = { s with cfg := c, lastCode := 0#3 } else Uploaded { s with cfg := c } t

/-! ## Unspecified values -/

/-- `s` and `t` differ in nothing but the values that registers hold while their valid bit is 0 (10_state.md R49, R52,
R53), which the spec leaves without a value. -/
structure SameButUnspecified (s t : State) : Prop where
  rest   : t = { s with wf := t.wf, divLast := t.divLast, status := t.status, result := t.result }
  frame  : s.wfValid = true → t.wf = s.wf ∧ t.divLast = s.divLast
  status : s.statusValid = true → t.status = s.status
  result : s.resultValid = true → t.result = s.result

/-! ## Integrity of the frames sent (41_codec.md R145) -/

/-- What R145 promises of a frame the block sends: the divisor is that of an in-band frequency, the band, the injection
side and the clock being those the frame itself carries. -/
def FrameSound (p : Params) (f : Frame) : Prop :=
  f.b4.extractLsb' 0 6 = 0#6 ∧
  ¬ (f.b3.getLsbD 4 = true ∧ f.b4.getLsbD 7 = true) ∧
  f.b2.extractLsb' 5 2 ≠ 0#2 ∧
  ∃ (b : Band) (inj : Injection) (c : Clock) (ref fc : Nat),
    f.b3.getLsbD 5 = decide (b = .japan) ∧ f.b2.getLsbD 4 = decide (inj = .high) ∧
    f.b3.getLsbD 4 = decide (c = .xtal32k) ∧ f.b4.getLsbD 7 = decide (c = .clk6m5) ∧
    RefOf p c ref ∧ InBand b fc ∧ IsDivisorOf inj ref fc (f.b0.extractLsb' 0 6 ++ f.b1).toNat

/-! ## The invariant of the machine -/

/-- The frame of a write request. -/
def writtenFrame : TraceEntry → Option Frame
  | .write _ f _ => some f
  | .read _ _ => none

/-- The frame of a read request that was answered OK. -/
def receivedFrame : TraceEntry → Option Frame
  | .write _ _ _ => none
  | .read _ (.ok f) => some f
  | .read _ .fail => none

/-- The bus address of a request. -/
def entryAddr : TraceEntry → BitVec 7
  | .write a _ _ => a
  | .read a _ => a

/-- The machine's invariant: what the registers, the flags and the trace tell of each other. -/
structure Inv (s : State) : Prop where
  /-- ERR_FIRST is 0 exactly while ERR is 0, and otherwise a refusal's code (10_state.md R54). -/
  errFirst    : if s.err then 1 ≤ s.errFirst.toNat ∧ s.errFirst.toNat ≤ 4 else s.errFirst = 0#3
  /-- LAST_CODE is never 6 or 7 (60_exceptions.md R200). -/
  lastCode    : s.lastCode.toNat ≤ 5
  /-- A refusal just reported is also in ERR (60_exceptions.md R203). -/
  refusalSeen : 1 ≤ s.lastCode.toNat → s.lastCode.toNat ≤ 4 → s.err = true
  /-- Every request went to the tuner (20_memory.md R60). -/
  address     : ∀ e ∈ s.trace, entryAddr e = 0x60#7
  /-- Every frame sent has the integrity of 41_codec.md R145. -/
  sound       : ∀ e ∈ s.trace, ∀ f, writtenFrame e = some f → FrameSound s.params f
  /-- WF holds the last frame sent, if any (10_state.md R49), and DIV_LAST its divisor (R50). -/
  lastWrite   : (s.trace.filterMap writtenFrame).getLast? = if s.wfValid then some s.wf else none
  divLast     : s.wfValid = true → s.divLast = s.wf.b0.extractLsb' 0 6 ++ s.wf.b1
  /-- STATUS is the last frame received, decoded with some injection side and clock (10_state.md R51, R52, R57). -/
  lastRead    : (s.trace.filterMap receivedFrame).getLast? = if s.statusValid then some s.status.raw else none
  status      : s.statusValid = true → ∃ inj c, StatusOf s.params inj c s.status.raw s.status
  /-- RESULT is the answer of one of the two conversions (10_state.md R53). -/
  result      : s.resultValid = true →
    (∃ b inj c ref f, RefOf s.params c ref ∧ InBand b f ∧ IsDivisorOf inj ref f s.result.toInt) ∨
    (∃ inj c ref, ∃ d : BitVec 14, RefOf s.params c ref ∧ IsFrequencyOf inj ref d.toNat s.result.toInt)

end Sys2Proof.Machine
end

