-- ==== Sys2Proof/Certificates/Slice0/Obligations.lean ====
section
/-! DEFINITION. The statements for the provers. -/

open Sys2Proof Sys2Proof.Machine

/-! ## Command words -/

/-- No bit of a command is dropped: decoding the word of any command, well-formed or not, gives it back. -/
def Obligations.DecodeEncodeAgree : Prop :=
  ∀ i : Instr, decodeWord (encode i) = .command i

/-- Each word has one meaning: a word that decodes to a command is that command's word. -/
def Obligations.EncodeDecodeAgree : Prop :=
  ∀ (w : CommandWord) (i : Instr), decodeWord w = .command i → encode i = w

/-- R85: the illegal opcodes are exactly the words with bit 39 set or an unassigned FUNC; such a word is refused with
code 1 and changes nothing but the error flags. -/
def Obligations.IllegalOpcodesRefused : Prop :=
  ∀ (s : State) (w : CommandWord),
    ((w.getLsbD 39 = true ∨
        (0x16 ≤ (w.extractLsb' 32 6).toNat ∧ (w.extractLsb' 32 6).toNat ≤ 0x1F) ∨ 0x24 ≤ (w.extractLsb' 32 6).toNat) →
      runCommand w s = .next (refused 1#3 s)) ∧
    (¬ (w.getLsbD 39 = true ∨
        (0x16 ≤ (w.extractLsb' 32 6).toNat ∧ (w.extractLsb' 32 6).toNat ≤ 0x1F) ∨ 0x24 ≤ (w.extractLsb' 32 6).toNat) →
      ∃ i, decodeWord w = .command i ∧ runCommand w s = exec i s)

/-- A step runs the decoded command, after taking the word off the host's inputs; more generally it is the host's next
event, and nothing where the host has none. The list of the host's inputs is the model's own (assumption logs 1 and
2). -/
def Obligations.StepRunsDecodedCommand : Prop :=
  ∀ s : State,
    (∀ w rest i, s.host = .command w :: rest → decodeWord w = .command i → step s = exec i { s with host := rest }) ∧
    (∀ e rest, s.host = e :: rest → step s = hostEvent e { s with host := rest }) ∧
    (s.host = [] → step s = .next s)

/-- Words written out from the encoding tables decode to the commands they stand for, one for each format, and the
examples of the assembler syntax encode as the spec says. -/
def Obligations.SampleWordsDecode : Prop :=
  decodeWord 0x0100000000#40 = .command (.mute false 0#32) ∧
  decodeWord 0x4800000001#40 = .command (.setBand true 0#31 .japan) ∧
  decodeWord 0x0A00000007#40 = .command (.setClock false 1#30 3#2) ∧
  decodeWord 0x0E055BC3E0#40 = .command (.setFrequency false 89900000#32) ∧
  decodeWord 0x220D5BC3E0#40 = .command (.toDivisor false false .usEu 0#2 .high 89900000#27) ∧
  decodeWord 0x2308002AF9#40 = .command (.fromDivisor false 0#2 0#2 .high 0#13 11001#14) ∧
  (assemble ⟨.setFrequency, false, [.num 89900000]⟩).map encode = some 0x0E055BC3E0#40 ∧
  (assemble ⟨.setBand, true, [.name .japan]⟩).map encode = some 0x4800000001#40 ∧
  (assemble ⟨.upload, false, []⟩).map encode = some 0x2000000000#40

/-- Every well-formed command has an assembler line, its operands written as numbers, that assembles to it. The syntax is
R88's; that TO_DIVISOR and FROM_DIVISOR take inj, clk and band as numbers and f and d as decimals, and which numbers a
B-format or an E2 value may be, is the model's choice (assumption log 13). -/
def Obligations.AssemblerReachesEveryCommand : Prop :=
  ∀ i : Instr, i.wellFormed = true → assemble (disassemble i) = some i

/-! ## Checks and refusals -/

/-- R203: a word that selects no row is refused with code 1, a command that fails a check with the code of the first
check it fails (R202), and nothing but the error flags changes. -/
def Obligations.FailedCheckRefusesPrecisely : Prop :=
  (∀ (w : CommandWord) (s : State) (r : DecodeReject), decodeWord w = .reject r → runCommand w s = .next (refused 1#3 s)) ∧
  (∀ (i : Instr) (s : State) (c : BitVec 3), refusalCode i = some c → exec i s = .next (refused c s))

/-- R54: a command that fails no check completes with LAST_CODE 0 or 5, leaving ERR and ERR_FIRST alone; 5 needs a
transport request that the environment answered with a failure. -/
def Obligations.PassedChecksComplete : Prop :=
  ∀ (i : Instr) (s : State), refusalCode i = none →
    ∃ t, exec i s = .next t ∧ t.err = s.err ∧ t.errFirst = s.errFirst ∧
      ((t.lastCode = 0#3 ∧ (∀ a f, t.trace ≠ s.trace ++ [.write a f .fail]) ∧ ∀ a, t.trace ≠ s.trace ++ [.read a .fail]) ∨
        (t.lastCode = 5#3 ∧
          ((∃ f, t.trace = s.trace ++ [.write 0x60#7 f .fail]) ∨ t.trace = s.trace ++ [.read 0x60#7 .fail])))

/-- R204: no event but reset clears ERR or changes ERR_FIRST once ERR is set, reset clears both, and ERR = 0 after a
command tells that it was not refused. -/
def Obligations.ErrorFlagsStick : Prop :=
  ∀ (s t : State) (e : HostEvent), hostEvent e s = .next t →
    (e ≠ .reset → s.err = true → t.err = true ∧ t.errFirst = s.errFirst) ∧
    (e = .reset → t.err = false ∧ t.errFirst = 0#3) ∧
    (∀ w, e = .command w → t.err = false → ∃ i, decodeWord w = .command i ∧ refusalCode i = none)

/-- R192: every command word, in every state and for every answer of the environment, gives a next state. -/
def Obligations.EveryWordCompletes : Prop :=
  ∀ (s : State) (w : CommandWord), ∃ t, runCommand w s = .next t

/-! ## The commands -/

/-- R190: NOP, the words with bit 39 = 0 and FUNC 0x00, writes LAST_CODE and nothing else; with H = 1 or a nonzero
argument it is refused with code 2. -/
def Obligations.NopWritesLastCodeOnly : Prop :=
  (∀ w : CommandWord, w.getLsbD 39 = false → w.extractLsb' 32 6 = 0x00#6 →
    decodeWord w = .command (.nop (w.getLsbD 38) (w.extractLsb' 0 32))) ∧
  (∀ (h : Bool) (arg : BitVec 32) (s : State),
    exec (.nop h arg) s =
      .next (if h = false ∧ arg = 0#32 then { s with lastCode := 0#3 } else refused 2#3 s))

/-- R161 to R167: the six mute commands complete with the selector of the transition table, held or uploaded. -/
def Obligations.MuteFamilyFollowsTable : Prop :=
  ∀ (h : Bool) (s : State),
    (∃ t, exec (.mute h 0#32) s = .next t ∧ Configured h { s.cfg with mute := .both } s t) ∧
    (∃ t, exec (.muteLeft h 0#32) s = .next t ∧ Configured h { s.cfg with mute := .left } s t) ∧
    (∃ t, exec (.muteRight h 0#32) s = .next t ∧ Configured h { s.cfg with mute := .right } s t) ∧
    (∃ t, exec (.unmute h 0#32) s = .next t ∧ Configured h { s.cfg with mute := .none } s t) ∧
    (∃ t, exec (.unmuteLeft h 0#32) s = .next t ∧
      Configured h { s.cfg with mute := match s.cfg.mute with
        | .both => .right | .left => .none | .right => .right | .none => .none } s t) ∧
    (∃ t, exec (.unmuteRight h 0#32) s = .next t ∧
      Configured h { s.cfg with mute := match s.cfg.mute with
        | .both => .left | .left => .left | .right => .none | .none => .none } s t)

/-- R169, R171, R175, R180: the commands that bear on the divisor complete with their field written. -/
def Obligations.TuningCommandsComplete : Prop :=
  ∀ (h : Bool) (s : State),
    (∀ v, ∃ t, exec (.setFrequency h v) s = .next t ∧ Configured h { s.cfg with freq := v } s t) ∧
    (∀ v, ∃ t, exec (.setBand h 0#31 v) s = .next t ∧ Configured h { s.cfg with band := v } s t) ∧
    (∀ v, ∃ t, exec (.setInjection h 0#31 v) s = .next t ∧ Configured h { s.cfg with inj := v } s t) ∧
    (∃ t, exec (.setClock h 0#30 0#2) s = .next t ∧ Configured h { s.cfg with clk := .xtal32k } s t) ∧
    (∃ t, exec (.setClock h 0#30 1#2) s = .next t ∧ Configured h { s.cfg with clk := .clk13m } s t) ∧
    (∃ t, exec (.setClock h 0#30 2#2) s = .next t ∧ Configured h { s.cfg with clk := .clk6m5 } s t)

/-- R170, R172, R173, R174, R176: the audio commands complete with their field written. -/
def Obligations.AudioCommandsComplete : Prop :=
  ∀ (h : Bool) (s : State),
    (∀ v, ∃ t, exec (.setSoftMute h 0#31 v) s = .next t ∧ Configured h { s.cfg with softMute := v } s t) ∧
    (∀ v, ∃ t, exec (.setHighCut h 0#31 v) s = .next t ∧ Configured h { s.cfg with highCut := v } s t) ∧
    (∀ v, ∃ t, exec (.setNoiseCancel h 0#31 v) s = .next t ∧ Configured h { s.cfg with snc := v } s t) ∧
    (∀ v, ∃ t, exec (.setDeemphasis h 0#31 v) s = .next t ∧ Configured h { s.cfg with deemph := v } s t) ∧
    (∀ v, ∃ t, exec (.setSoundMode h 0#31 v) s = .next t ∧ Configured h { s.cfg with sound := v } s t)

/-- R177, R178, R179: the search commands complete with their field written. -/
def Obligations.SearchCommandsComplete : Prop :=
  ∀ (h : Bool) (s : State),
    (∀ v, ∃ t, exec (.setSearchMode h 0#31 v) s = .next t ∧ Configured h { s.cfg with searchMode := v } s t) ∧
    (∀ v, ∃ t, exec (.setSearchDir h 0#31 v) s = .next t ∧ Configured h { s.cfg with searchDir := v } s t) ∧
    (∃ t, exec (.setSearchThreshold h 0#30 1#2) s = .next t ∧ Configured h { s.cfg with searchThr := .tlow } s t) ∧
    (∃ t, exec (.setSearchThreshold h 0#30 2#2) s = .next t ∧ Configured h { s.cfg with searchThr := .tmid } s t) ∧
    (∃ t, exec (.setSearchThreshold h 0#30 3#2) s = .next t ∧ Configured h { s.cfg with searchThr := .thigh } s t)

/-- R168, R181, R182: standby and the two ports complete with their field written. -/
def Obligations.StandbyAndPortsComplete : Prop :=
  ∀ (h : Bool) (s : State),
    (∀ v, ∃ t, exec (.setStandby h 0#31 v) s = .next t ∧ Configured h { s.cfg with standby := v } s t) ∧
    (∀ v, ∃ t, exec (.setPort1 h 0#31 v) s = .next t ∧ Configured h { s.cfg with port1 := v } s t) ∧
    (∀ v, ∃ t, exec (.setPort2 h 0#31 v) s = .next t ∧ Configured h { s.cfg with port2 := v } s t)

/-- R83, R241: a configuration command with its hold bit set and then an UPLOAD leave the same state as the same command
without the hold bit. -/
def Obligations.HeldThenUploadIsUnheld : Prop :=
  ∀ (i j : Instr) (s t u : State), i.isConfig = true → i.hold = true → j.hold = false → i.func = j.func → i.arg = j.arg →
    refusalCode i = none → exec i s = .next t → exec (.upload false 0#32) t = .next u → exec j s = .next u

/-- R144, R146: UPLOAD runs the upload sequence from every state. How it takes the environment's answer is the model's
choice (assumption log 3). -/
def Obligations.UploadCompletes : Prop :=
  ∀ s : State, ∃ t, exec (.upload false 0#32) s = .next t ∧ Uploaded s t

/-- R147: DOWNLOAD takes the environment's answer: the frame received is decoded into STATUS with the injection side and
clock of this moment, a failure leaves STATUS alone; nothing else changes. How it takes the answer is the model's choice
(assumption log 3). -/
def Obligations.DownloadCompletes : Prop :=
  ∀ s : State,
    (∀ f, nextReadAnswer s.env = .ok f →
      ∃ st, StatusOf s.params s.cfg.inj s.cfg.clk f st ∧
        exec (.download false 0#32) s = .next
          { s with
            status      := st
            statusValid := true
            trace       := s.trace ++ [.read 0x60#7 (.ok f)]
            env         := afterReadAnswer s.env
            lastCode    := 0#3 }) ∧
    (nextReadAnswer s.env = .fail →
      exec (.download false 0#32) s = .next
        { s with
          trace    := s.trace ++ [.read 0x60#7 .fail]
          env      := afterReadAnswer s.env
          lastCode := 5#3 })

/-- R125: TO_DIVISOR of an in-band frequency writes RESULT with the divisor, between 0 and 16383, reads no configuration
and makes no transfer. -/
def Obligations.ToDivisorCompletes : Prop :=
  ∀ (s : State) (bd : Band) (v : BitVec 2) (inj : Injection) (f : BitVec 27) (c : Clock) (ref : Nat),
    InBand bd f.toNat → v = (match c with | .xtal32k => 0#2 | .clk13m => 1#2 | .clk6m5 => 2#2) → RefOf s.params c ref →
    ∃ d : BitVec 32, IsDivisorOf inj ref f.toNat d.toInt ∧ 0 ≤ d.toInt ∧ d.toInt ≤ 16383 ∧
      exec (.toDivisor false false bd v inj f) s = .next { s with result := d, resultValid := true, lastCode := 0#3 }

/-- R126: FROM_DIVISOR of any 14-bit divisor writes RESULT with the frequency in units of 100 000 Hz, reads no
configuration and makes no transfer. -/
def Obligations.FromDivisorCompletes : Prop :=
  ∀ (s : State) (v : BitVec 2) (inj : Injection) (d : BitVec 14) (c : Clock) (ref : Nat),
    v = (match c with | .xtal32k => 0#2 | .clk13m => 1#2 | .clk6m5 => 2#2) → RefOf s.params c ref →
    ∃ q : BitVec 32, IsFrequencyOf inj ref d.toNat q.toInt ∧
      exec (.fromDivisor false 0#2 v inj 0#13 d) s = .next { s with result := q, resultValid := true, lastCode := 0#3 }

/-! ## Whole-machine rules -/

/-- The machine's invariant is kept by every step, from every state that meets it. -/
def Obligations.StepKeepsInvariant : Prop :=
  ∀ s t : State, Inv s → step s = .next t → Inv t

/-- The machine right after reset meets its invariant. -/
def Obligations.ResetMeetsInvariant : Prop := Inv State.reset

/-- R145: every frame a command sends has byte4 bits 5 to 0 zero, never XTAL and PLLREF together, a threshold code, and
the divisor of an in-band frequency. -/
def Obligations.SentFramesAreSound : Prop :=
  ∀ (i : Instr) (s t : State) (a : BitVec 7) (f : Frame) (r : WriteAnswer),
    exec i s = .next t → t.trace = s.trace ++ [.write a f r] → FrameSound s.params f

/-- R60: only UPLOAD and a configuration command without its hold bit reach the write frame, only DOWNLOAD the read
frame, at most one request a command, at bus address 0x60, after the earlier ones on the trace. -/
def Obligations.TransportOnlyByTransfers : Prop :=
  ∀ (i : Instr) (s t : State), exec i s = .next t →
    t.trace = s.trace ∨
    (∃ r, t.trace = s.trace ++ [.write 0x60#7 t.wf r] ∧
      (i = .upload false 0#32 ∨ (i.isConfig = true ∧ i.hold = false))) ∨
    (∃ r, t.trace = s.trace ++ [.read 0x60#7 r] ∧ i = .download false 0#32)

/-- Who writes what: CFG only a configuration command (or, with P_CLAMP_WRITEBACK, the frequency by an upload), WF,
DIV_LAST and WF_VALID only an upload, STATUS only a DOWNLOAD, RESULT only the converter commands; nothing clears a valid
bit. That no command changes the parameters, the host's inputs or the list of what the host has read is the model's
choice of holding them in State (assumption logs 4, 1 and 8). -/
def Obligations.RegistersHaveTheirWriters : Prop :=
  ∀ (i : Instr) (s t : State), exec i s = .next t →
    (i.isConfig = false → { t.cfg with freq := s.cfg.freq } = s.cfg ∧
      (s.params.clampWriteback = false ∨ i ≠ .upload false 0#32 → t.cfg = s.cfg)) ∧
    (i ≠ .upload false 0#32 → (i.isConfig = true → i.hold = true) →
      t.wf = s.wf ∧ t.divLast = s.divLast ∧ t.wfValid = s.wfValid) ∧
    (i ≠ .download false 0#32 → t.status = s.status ∧ t.statusValid = s.statusValid) ∧
    ((∀ h rsv bd c inj f, i ≠ .toDivisor h rsv bd c inj f) → (∀ h rh c inj rl d, i ≠ .fromDivisor h rh c inj rl d) →
      t.result = s.result ∧ t.resultValid = s.resultValid) ∧
    (s.wfValid = true → t.wfValid = true) ∧ (s.statusValid = true → t.statusValid = true) ∧
    (s.resultValid = true → t.resultValid = true) ∧
    t.params = s.params ∧ t.host = s.host ∧ t.replies = s.replies

/-- No command reads STATUS, RESULT, WF, DIV_LAST or the trace: two states that agree on CFG, the parameters and the
environment (assumption logs 3 and 4) make the same requests and come to the same CFG, environment and LAST_CODE, and
each of the write-frame registers, the status registers and the result registers is left alone in both or written with
the same values in both. The flags are no part of this: a refusal reads ERR. -/
def Obligations.CommandsReadOnlyConfiguration : Prop :=
  ∀ (i : Instr) (s₁ s₂ t₁ t₂ : State),
    s₁.cfg = s₂.cfg → s₁.params = s₂.params → s₁.env = s₂.env → exec i s₁ = .next t₁ → exec i s₂ = .next t₂ →
    t₁.cfg = t₂.cfg ∧ t₁.env = t₂.env ∧ t₁.lastCode = t₂.lastCode ∧
    (∃ new, t₁.trace = s₁.trace ++ new ∧ t₂.trace = s₂.trace ++ new) ∧
    ((t₁.wf = s₁.wf ∧ t₁.divLast = s₁.divLast ∧ t₁.wfValid = s₁.wfValid ∧
        t₂.wf = s₂.wf ∧ t₂.divLast = s₂.divLast ∧ t₂.wfValid = s₂.wfValid) ∨
      (t₁.wf = t₂.wf ∧ t₁.divLast = t₂.divLast ∧ t₁.wfValid = t₂.wfValid)) ∧
    ((t₁.status = s₁.status ∧ t₁.statusValid = s₁.statusValid ∧
        t₂.status = s₂.status ∧ t₂.statusValid = s₂.statusValid) ∨
      (t₁.status = t₂.status ∧ t₁.statusValid = t₂.statusValid)) ∧
    ((t₁.result = s₁.result ∧ t₁.resultValid = s₁.resultValid ∧
        t₂.result = s₂.result ∧ t₂.resultValid = s₂.resultValid) ∨
      (t₁.result = t₂.result ∧ t₁.resultValid = t₂.resultValid))

/-- R57: what DOWNLOAD decodes depends on no configuration field but the injection side and the clock selector, and not
on the frames sent before. -/
def Obligations.DownloadReadsInjectionAndClock : Prop :=
  ∀ (s₁ s₂ t₁ t₂ : State) (f : Frame),
    s₁.cfg.inj = s₂.cfg.inj → s₁.cfg.clk = s₂.cfg.clk → s₁.params = s₂.params →
    nextReadAnswer s₁.env = .ok f → nextReadAnswer s₂.env = .ok f →
    exec (.download false 0#32) s₁ = .next t₁ → exec (.download false 0#32) s₂ = .next t₂ → t₁.status = t₂.status

/-- R68: a second UPLOAD sends the same bytes again, and when both answers are the same only the trace and the
environment have changed. The environment's part of State is the model's choice (assumption log 3). -/
def Obligations.RepeatedUploadSendsSameFrame : Prop :=
  ∀ s t u : State, exec (.upload false 0#32) s = .next t → exec (.upload false 0#32) t = .next u →
    u.trace = s.trace ++ [.write 0x60#7 t.wf (nextWriteAnswer s.env), .write 0x60#7 t.wf (nextWriteAnswer t.env)] ∧
    (nextWriteAnswer s.env = nextWriteAnswer t.env → u = { t with trace := u.trace, env := u.env })

/-- R201: a transport failure is an outcome, not a refusal: whatever the environment answers to an upload, the registers
are written alike, ERR and ERR_FIRST stay, and only LAST_CODE tells the failure. The environment's part of State is the
model's choice (assumption log 3). -/
def Obligations.TransportFailureKeepsWrites : Prop :=
  ∀ (i : Instr) (s t₁ t₂ : State) (e₁ e₂ : Environment), (i = .upload false 0#32 ∨ i.isConfig = true) →
    exec i { s with env := e₁ } = .next t₁ → exec i { s with env := e₂ } = .next t₂ →
    t₁ = { t₂ with lastCode := t₁.lastCode, trace := t₁.trace, env := t₁.env } ∧
      (refusalCode i = none → t₁.err = s.err ∧ t₁.errFirst = s.errFirst)

/-- Each request takes the environment's next settled answer, once: the write request of UPLOAD or of a configuration
command without its hold bit takes the next write answer, the read request of DOWNLOAD the next read answer, and a
command that makes no request takes none. The lists of settled answers are the model's choice (assumption log 3). -/
def Obligations.AnswersAreTakenInOrder : Prop :=
  ∀ (s : State),
    (∀ i a rest, (i = .upload false 0#32 ∨ (i.isConfig = true ∧ i.hold = false)) → refusalCode i = none →
      s.env.writeAnswers = a :: rest →
      ∃ t, exec i s = .next t ∧ t.trace = s.trace ++ [.write 0x60#7 t.wf a] ∧
        t.env = { s.env with writeAnswers := rest } ∧ t.lastCode = (match a with | .ok => 0#3 | .fail => 5#3)) ∧
    (∀ a rest, s.env.readAnswers = a :: rest →
      ∃ t, exec (.download false 0#32) s = .next t ∧ t.trace = s.trace ++ [.read 0x60#7 a] ∧
        t.env = { s.env with readAnswers := rest } ∧ t.lastCode = (match a with | .ok _ => 0#3 | .fail => 5#3)) ∧
    (∀ i t, exec i s = .next t → t.trace = s.trace → t.env = s.env)

/-! ## Reset and the register read port -/

/-- Reset puts the parameter's configuration into CFG, clears the valid bits and the flags and empties the trace (R230);
the default of the parameter is the table of R56. That it keeps the environment's pending answers is the model's choice
(assumption log 9), that it keeps the parameters is R231, and which bits of registers 3, 4 and 7 it leaves unspecified
rests on the deduction of assumption log 8. -/
def Obligations.ResetSetsSpecifiedValues : Prop :=
  (∀ s : State,
    ∃ t, hostEvent .reset s = .next t ∧ t.cfg = s.params.resetCfg ∧ t.wfValid = false ∧ t.statusValid = false ∧
      t.resultValid = false ∧ t.err = false ∧ t.errFirst = 0#3 ∧ t.lastCode = 0#3 ∧ t.trace = [] ∧
      t.params = s.params ∧ t.env = s.env ∧
      unspecifiedBits t 2#4 = 0xFFFFFFFF#32 ∧ unspecifiedBits t 3#4 = 0x003FFFFF#32 ∧
      unspecifiedBits t 4#4 = 0x001FFFFF#32 ∧ unspecifiedBits t 5#4 = 0xFFFFFFFF#32 ∧
      unspecifiedBits t 6#4 = 0xFFFFFFFF#32 ∧ unspecifiedBits t 7#4 = 0x000000FF#32 ∧
      unspecifiedBits t 8#4 = 0xFFFFFFFF#32) ∧
  State.reset.cfg = State.reset.params.resetCfg ∧
  State.reset.params.resetCfg =
    { freq := 87500000#32, band := .usEu, standby := false, mute := .none, softMute := false, searchMode := false,
      searchDir := .up, searchThr := .tmid, inj := .high, sound := .stereo, highCut := false, snc := false,
      clk := .xtal32k, deemph := .de50, port1 := false, port2 := false } ∧
  regWord State.reset 0#4 = 87500000#32 ∧ regWord State.reset 1#4 = 0x00000340#32 ∧ regWord State.reset 9#4 = 0#32

/-- R55: a register read returns the selected bits of the register and changes nothing of the block, and it faults
exactly when a selected bit is unspecified: WF and DIV_LAST while WF_VALID = 0, STATUS while STATUS_VALID = 0, RESULT
while RESULT_VALID = 0. The mask, and the list of replies, are the model's choice (assumption log 8). -/
def Obligations.RegisterReadFaultsOnlyOnUnspecified : Prop :=
  ∀ (s : State) (n : BitVec 4) (mask : Word) (rest : List HostEvent), s.host = .readReg n mask :: rest →
    let unspecified : Prop := ∃ k, mask.getLsbD k = true ∧
      ((s.wfValid = false ∧ (n = 2#4 ∨ (n = 3#4 ∧ k ≤ 21))) ∨
        (s.statusValid = false ∧ ((n = 4#4 ∧ k ≤ 20) ∨ n = 5#4 ∨ n = 6#4 ∨ (n = 7#4 ∧ k ≤ 7))) ∨
        (s.resultValid = false ∧ n = 8#4))
    (unspecified → step s = .fault (.unspecifiedRead n)) ∧
    (¬ unspecified →
      step s = .next { s with host := rest, replies := s.replies ++ [⟨n, mask, regWord s n &&& mask⟩] })

/-- The values that registers hold while their valid bit is 0, which the spec leaves unspecified and State.reset and the
reset event choose (assumption log 6), reach nothing: two states that differ only in them take the same steps, stop on
the same reads and show the same observation. -/
def Obligations.UnspecifiedValuesReachNothing : Prop :=
  ∀ s t : State, SameButUnspecified s t →
    (∀ s', step s = .next s' → ∃ t', step t = .next t' ∧ SameButUnspecified s' t') ∧
    (∀ f, step s = .fault f → step t = .fault f) ∧
    observe s = observe t

/-- R55: the map of CFG_FREQ and CFG_CTRL, field by field. -/
def Obligations.ConfigRegistersPlaceFields : Prop :=
  ∀ s : State,
    regWord s 0#4 = s.cfg.freq ∧
    (regWord s 1#4).getLsbD 0 = decide (s.cfg.band = .japan) ∧
    (regWord s 1#4).getLsbD 1 = s.cfg.standby ∧
    (regWord s 1#4).extractLsb' 2 2 = (match s.cfg.mute with | .none => 0#2 | .left => 1#2 | .right => 2#2 | .both => 3#2) ∧
    (regWord s 1#4).getLsbD 4 = s.cfg.softMute ∧
    (regWord s 1#4).getLsbD 5 = s.cfg.searchMode ∧
    (regWord s 1#4).getLsbD 6 = decide (s.cfg.searchDir = .up) ∧
    (regWord s 1#4).extractLsb' 7 2 = (match s.cfg.searchThr with | .tlow => 1#2 | .tmid => 2#2 | .thigh => 3#2) ∧
    (regWord s 1#4).getLsbD 9 = decide (s.cfg.inj = .high) ∧
    (regWord s 1#4).getLsbD 10 = decide (s.cfg.sound = .mono) ∧
    (regWord s 1#4).getLsbD 11 = s.cfg.highCut ∧
    (regWord s 1#4).getLsbD 12 = s.cfg.snc ∧
    (regWord s 1#4).extractLsb' 13 2 = (match s.cfg.clk with | .xtal32k => 0#2 | .clk13m => 1#2 | .clk6m5 => 2#2) ∧
    (regWord s 1#4).getLsbD 15 = decide (s.cfg.deemph = .de75) ∧
    (regWord s 1#4).getLsbD 16 = s.cfg.port1 ∧
    (regWord s 1#4).getLsbD 17 = s.cfg.port2 ∧
    (regWord s 1#4).extractLsb' 18 14 = 0#14

/-- R55: the map of the two write-frame registers and of the two raw read-frame registers. -/
def Obligations.FrameRegistersPlaceFields : Prop :=
  ∀ s : State,
    (regWord s 2#4).extractLsb' 24 8 = s.wf.b0 ∧ (regWord s 2#4).extractLsb' 16 8 = s.wf.b1 ∧
    (regWord s 2#4).extractLsb' 8 8 = s.wf.b2 ∧ (regWord s 2#4).extractLsb' 0 8 = s.wf.b3 ∧
    (regWord s 3#4).extractLsb' 0 8 = s.wf.b4 ∧ (regWord s 3#4).extractLsb' 8 14 = s.divLast ∧
    (regWord s 3#4).extractLsb' 22 9 = 0#9 ∧ (regWord s 3#4).getLsbD 31 = s.wfValid ∧
    (regWord s 6#4).extractLsb' 24 8 = s.status.raw.b0 ∧ (regWord s 6#4).extractLsb' 16 8 = s.status.raw.b1 ∧
    (regWord s 6#4).extractLsb' 8 8 = s.status.raw.b2 ∧ (regWord s 6#4).extractLsb' 0 8 = s.status.raw.b3 ∧
    (regWord s 7#4).extractLsb' 0 8 = s.status.raw.b4 ∧ (regWord s 7#4).extractLsb' 8 23 = 0#23 ∧
    (regWord s 7#4).getLsbD 31 = s.statusValid

/-- R55: the map of STATUS0, STATUS_FREQ, RESULT, ERRSTAT and the reserved registers. -/
def Obligations.StatusRegistersPlaceFields : Prop :=
  ∀ s : State,
    (regWord s 4#4).getLsbD 0 = s.status.ready ∧ (regWord s 4#4).getLsbD 1 = s.status.blf ∧
    (regWord s 4#4).getLsbD 2 = s.status.stereo ∧ (regWord s 4#4).extractLsb' 3 4 = s.status.level ∧
    (regWord s 4#4).extractLsb' 7 14 = s.status.div ∧ (regWord s 4#4).extractLsb' 21 10 = 0#10 ∧
    (regWord s 4#4).getLsbD 31 = s.statusValid ∧
    regWord s 5#4 = s.status.freq ∧
    regWord s 8#4 = s.result ∧
    (regWord s 9#4).getLsbD 0 = s.err ∧ (regWord s 9#4).extractLsb' 1 3 = s.errFirst ∧
    (regWord s 9#4).extractLsb' 4 3 = s.lastCode ∧ (regWord s 9#4).extractLsb' 7 24 = 0#24 ∧
    (regWord s 9#4).getLsbD 31 = s.resultValid ∧
    (∀ n : BitVec 4, 10 ≤ n.toNat → regWord s n = 0#32)

/-! ## The converter -/

/-- R120: the clamp's result is inside the band, an inside frequency is unchanged and an outside one becomes the limit;
its four corner cases. -/
def Obligations.BandClampStaysInBand : Prop :=
  (∀ (f : Nat) (b : Band), ClampedTo b f (bandClamp f b)) ∧
  bandClamp 0 .usEu = 87500000 ∧ bandClamp 4294967295 .japan = 91000000

/-- R122: every in-band divisor fits 14 bits for every well-formed reference, and with 32 768 Hz the divisors go from 9249
to 13211; whatever the divisor, a frame carries it modulo 16384. -/
def Obligations.InBandDivisorFits14Bits : Prop :=
  (∀ (b : Band) (inj : Injection) (f : Nat), InBand b f →
    (∀ ref : Nat, 26423 ≤ ref → ref ≤ 2 ^ 32 - 1 → 0 ≤ toDivisor inj ref f ∧ toDivisor inj ref f ≤ 16383) ∧
    9249 ≤ toDivisor inj 32768 f ∧ toDivisor inj 32768 f ≤ 13211) ∧
  toDivisor .low 32768 76000000 = 9249 ∧ toDivisor .high 32768 108000000 = 13211 ∧
  (∀ (p : Params) (c : Cfg) (d : Int),
    (((encodeFrame p c d).b0.extractLsb' 0 6 ++ (encodeFrame p c d).b1).toNat : Int) = d % 16384)

/-- R123: from_divisor is the nearest integer, ties away from zero; with 32 768 Hz no tie occurs; its four corner
cases. -/
def Obligations.FromDivisorRoundsToNearest : Prop :=
  (∀ (inj : Injection) (ref d : Nat),
    IsFrequencyOf inj ref d (fromDivisor inj ref d) ∧
    2 * |400000 * fromDivisor inj 32768 d - numerator4 inj 32768 d| < 400000) ∧
  fromDivisor .high 32768 0 = -2 ∧ fromDivisor .low 32768 0 = 2 ∧
  fromDivisor .low 32768 16383 = 1344 ∧ fromDivisor .high 32768 16383 = 1340

/-- R127: the round trip from a frequency to its divisor and back is off by less than 50 000 + ref / 4 Hz. -/
def Obligations.RoundTripErrorIsBounded : Prop :=
  ∀ (b : Band) (inj : Injection) (ref f : Nat), InBand b f → 26423 ≤ ref → ref ≤ 2 ^ 32 - 1 →
    4 * |100000 * fromDivisor inj ref (toDivisor inj ref f).toNat - (f : Int)| < 200000 + ref

/-- R128: both conversions are non-decreasing, and the LOW-side divisor is below the HIGH-side one by
fdiv(1800000, ref) or one more. -/
def Obligations.ConversionsAreMonotone : Prop :=
  ∀ (inj : Injection) (ref : Nat), 0 < ref →
    (∀ f g : Nat, f ≤ g → toDivisor inj ref f ≤ toDivisor inj ref g) ∧
    (∀ d e : Nat, d ≤ e → fromDivisor inj ref d ≤ fromDivisor inj ref e) ∧
    (∀ f : Nat, toDivisor .high ref f - toDivisor .low ref f = fdiv 1800000 ref ∨
      toDivisor .high ref f - toDivisor .low ref f = fdiv 1800000 ref + 1)

/-! ## The codec -/

/-- R140: set_field writes the field's bits, the value cut to the field's width, and no other bit; get_field reads the
field's bits; set_bit writes its one bit. -/
def Obligations.BitFieldsDoNotSpill : Prop :=
  (∀ (x : Byte) (hi lo v : Nat), lo ≤ hi → hi ≤ 7 →
    getField (setField x hi lo v) hi lo = v % 2 ^ (hi - lo + 1) ∧
    (∀ k, k < 8 → (k < lo ∨ hi < k) → getBit (setField x hi lo v) k = getBit x k) ∧
    (∀ k, (getField x hi lo).testBit k = (decide (k ≤ hi - lo) && getBit x (lo + k)))) ∧
  (∀ (x : Byte) (i k : Nat) (v : Bool), i ≤ 7 → k ≤ 7 → getBit (setBit x i v) k = if k = i then v else getBit x k)

/-- R141: unpack undoes pack for every 14-bit divisor, whatever the two top bits of the high byte are, and pack reduces
any other integer modulo 16384. -/
def Obligations.UnpackUndoesPack : Prop :=
  ∀ (d : Int) (top : BitVec 2),
    ((unpack (top ++ packHi d) (packLo d)).toNat : Int) = d % 16384 ∧
    (0 ≤ d → d ≤ 16383 → ((unpack (top ++ packHi d) (packLo d)).toNat : Int) = d)

/-- R90 to R100, R142: a frame is the encoding of a configuration and a divisor exactly when each of its 40 bits is what
the layout says. -/
def Obligations.EncodeFollowsLayout : Prop :=
  ∀ (p : Params) (c : Cfg) (d : Int) (f : Frame), FrameCarries p c (BitVec.ofInt 14 d) f ↔ f = encodeFrame p c d

/-- R140: the encoder is a chain of set_field on zero bytes. -/
def Obligations.EncodeIsSetFieldChain : Prop :=
  ∀ (p : Params) (c : Cfg) (d : Nat), d < 16384 →
    encodeFrame p c d =
      { b0 := setBit (setBit (setField 0#8 5 0 (d / 256)) 6 c.searchMode) 7 (muteBit c.mute)
        b1 := setField 0#8 7 0 d
        b2 := setBit (setBit (setBit (setBit (setBit (setField (setBit 0#8 7 c.searchDir.bit) 6 5 c.searchThr.code.toNat)
          4 c.inj.bit) 3 c.sound.bit) 2 (muteRightBit p c.mute)) 1 (muteLeftBit p c.mute)) 0 c.port1
        b3 := setBit (setBit (setBit (setBit (setBit (setBit (setBit (setBit 0#8 7 c.port2) 6 c.standby) 5 c.band.bit)
          4 (xtalBit c.clk)) 3 c.softMute) 2 c.highCut) 1 c.snc) 0 (searchIndicatorBit p c)
        b4 := setField (setBit (setBit 0#8 7 (pllrefBit c.clk)) 6 c.deemph.bit) 5 0 0 }

/-- R143: decoding reads the fields of the layout, and the bits the layout calls unused change nothing but the raw
copy. -/
def Obligations.DecodeIgnoresUnusedBits : Prop :=
  ∀ (p : Params) (inj : Injection) (c : Clock) (f g : Frame),
    StatusOf p inj c f (decodeFrame f inj (refHz p c)) ∧
    (f.b0 = g.b0 → f.b1 = g.b1 → f.b2.getLsbD 7 = g.b2.getLsbD 7 → f.b3.extractLsb' 4 4 = g.b3.extractLsb' 4 4 →
      decodeFrame g inj (refHz p c) = { decodeFrame f inj (refHz p c) with raw := g })
end

