-- ==== Sys2Proof/Laws/Words.lean ====
section
/-! SUPPORT. The fields of command words and arguments: each field of a built word is what was put there, and a word is
built back from its fields. -/

namespace Sys2Proof

/-! ## Command words -/

@[simp] theorem wordR_mkWord (h : Bool) (fn : BitVec 6) (a : BitVec 32) : wordR (mkWord h fn a) = false := by
  simp only [wordR, mkWord, BitVec.getLsbD_append]
  simp

@[simp] theorem wordH_mkWord (h : Bool) (fn : BitVec 6) (a : BitVec 32) : wordH (mkWord h fn a) = h := by
  simp only [wordH, mkWord, BitVec.getLsbD_append]
  simp

@[simp] theorem wordFunc_mkWord (h : Bool) (fn : BitVec 6) (a : BitVec 32) : wordFunc (mkWord h fn a) = fn := by
  apply BitVec.eq_of_getLsbD_eq
  intro k hk
  simp only [wordFunc, mkWord, BitVec.getLsbD_extractLsb', BitVec.getLsbD_append]
  simp [hk]

@[simp] theorem wordArg_mkWord (h : Bool) (fn : BitVec 6) (a : BitVec 32) : wordArg (mkWord h fn a) = a := by
  apply BitVec.eq_of_getLsbD_eq
  intro k hk
  simp only [wordArg, mkWord, BitVec.getLsbD_extractLsb', BitVec.getLsbD_append]
  simp [hk]

/-- A word whose bit 39 is 0 is built from its other fields. -/
theorem mkWord_fields (w : CommandWord) (h : wordR w = false) : mkWord (wordH w) (wordFunc w) (wordArg w) = w := by
  apply BitVec.eq_of_getLsbD_eq
  intro k hk
  simp only [wordR, wordH, wordFunc, wordArg, mkWord, BitVec.getLsbD_extractLsb', BitVec.getLsbD_append] at *
  interval_cases k <;> simp_all

/-! ## Arguments -/

@[simp] theorem argB_rsv_mk (r : BitVec 31) (v : Bool) : argB_rsv (mkArgB r v) = r := by
  apply BitVec.eq_of_getLsbD_eq
  intro k hk
  simp only [argB_rsv, mkArgB, BitVec.getLsbD_extractLsb', BitVec.getLsbD_append]
  simp [hk]

@[simp] theorem argB_v_mk (r : BitVec 31) (v : Bool) : argB_v (mkArgB r v) = v := by
  simp only [argB_v, mkArgB, BitVec.getLsbD_append]
  simp

theorem mkArgB_fields (a : BitVec 32) : mkArgB (argB_rsv a) (argB_v a) = a := by
  apply BitVec.eq_of_getLsbD_eq
  intro k hk
  simp only [argB_rsv, argB_v, mkArgB, BitVec.getLsbD_extractLsb', BitVec.getLsbD_append]
  interval_cases k <;> simp

@[simp] theorem argE2_rsv_mk (r : BitVec 30) (v : BitVec 2) : argE2_rsv (mkArgE2 r v) = r := by
  apply BitVec.eq_of_getLsbD_eq
  intro k hk
  simp only [argE2_rsv, mkArgE2, BitVec.getLsbD_extractLsb', BitVec.getLsbD_append]
  have h2 : ¬ 2 + k < 2 := by omega
  simp [hk, h2]

@[simp] theorem argE2_v_mk (r : BitVec 30) (v : BitVec 2) : argE2_v (mkArgE2 r v) = v := by
  apply BitVec.eq_of_getLsbD_eq
  intro k hk
  simp only [argE2_v, mkArgE2, BitVec.getLsbD_extractLsb', BitVec.getLsbD_append]
  simp [hk]

theorem mkArgE2_fields (a : BitVec 32) : mkArgE2 (argE2_rsv a) (argE2_v a) = a := by
  apply BitVec.eq_of_getLsbD_eq
  intro k hk
  simp only [argE2_rsv, argE2_v, mkArgE2, BitVec.getLsbD_extractLsb', BitVec.getLsbD_append]
  interval_cases k <;> simp

section FormatTD

variable (r bd i : Bool) (c : BitVec 2) (f : BitVec 27)

@[simp] theorem argTD_rsv_mk : argTD_rsv (mkArgTD r bd c i f) = r := by
  simp only [argTD_rsv, mkArgTD, BitVec.getLsbD_append]
  simp

@[simp] theorem argTD_bd_mk : argTD_bd (mkArgTD r bd c i f) = bd := by
  simp only [argTD_bd, mkArgTD, BitVec.getLsbD_append]
  simp

@[simp] theorem argC_mkTD : argC (mkArgTD r bd c i f) = c := by
  apply BitVec.eq_of_getLsbD_eq
  intro k hk
  simp only [argC, mkArgTD, BitVec.getLsbD_extractLsb', BitVec.getLsbD_append]
  interval_cases k <;> simp

@[simp] theorem argI_mkTD : argI (mkArgTD r bd c i f) = i := by
  simp only [argI, mkArgTD, BitVec.getLsbD_append]
  simp

@[simp] theorem argTD_f_mk : argTD_f (mkArgTD r bd c i f) = f := by
  apply BitVec.eq_of_getLsbD_eq
  intro k hk
  simp only [argTD_f, mkArgTD, BitVec.getLsbD_extractLsb', BitVec.getLsbD_append]
  simp [hk]

theorem mkArgTD_fields (a : BitVec 32) :
    mkArgTD (argTD_rsv a) (argTD_bd a) (argC a) (argI a) (argTD_f a) = a := by
  apply BitVec.eq_of_getLsbD_eq
  intro k hk
  simp only [argTD_rsv, argTD_bd, argC, argI, argTD_f, mkArgTD, BitVec.getLsbD_extractLsb', BitVec.getLsbD_append]
  interval_cases k <;> simp

end FormatTD

section FormatFD

variable (rh c : BitVec 2) (i : Bool) (rl : BitVec 13) (d : BitVec 14)

@[simp] theorem argFD_rsvHi_mk : argFD_rsvHi (mkArgFD rh c i rl d) = rh := by
  apply BitVec.eq_of_getLsbD_eq
  intro k hk
  simp only [argFD_rsvHi, mkArgFD, BitVec.getLsbD_extractLsb', BitVec.getLsbD_append]
  interval_cases k <;> simp

@[simp] theorem argC_mkFD : argC (mkArgFD rh c i rl d) = c := by
  apply BitVec.eq_of_getLsbD_eq
  intro k hk
  simp only [argC, mkArgFD, BitVec.getLsbD_extractLsb', BitVec.getLsbD_append]
  interval_cases k <;> simp

@[simp] theorem argI_mkFD : argI (mkArgFD rh c i rl d) = i := by
  simp only [argI, mkArgFD, BitVec.getLsbD_append]
  simp

@[simp] theorem argFD_rsvLo_mk : argFD_rsvLo (mkArgFD rh c i rl d) = rl := by
  apply BitVec.eq_of_getLsbD_eq
  intro k hk
  simp only [argFD_rsvLo, mkArgFD, BitVec.getLsbD_extractLsb', BitVec.getLsbD_append]
  interval_cases k <;> simp

@[simp] theorem argFD_d_mk : argFD_d (mkArgFD rh c i rl d) = d := by
  apply BitVec.eq_of_getLsbD_eq
  intro k hk
  simp only [argFD_d, mkArgFD, BitVec.getLsbD_extractLsb', BitVec.getLsbD_append]
  simp [hk]

theorem mkArgFD_fields (a : BitVec 32) :
    mkArgFD (argFD_rsvHi a) (argC a) (argI a) (argFD_rsvLo a) (argFD_d a) = a := by
  apply BitVec.eq_of_getLsbD_eq
  intro k hk
  simp only [argFD_rsvHi, argC, argI, argFD_rsvLo, argFD_d, mkArgFD, BitVec.getLsbD_extractLsb', BitVec.getLsbD_append]
  interval_cases k <;> simp

end FormatFD

/-! ## Codes -/

@[simp] theorem Band.ofBit_bit (b : Band) : Band.ofBit b.bit = b := by cases b <;> rfl
@[simp] theorem Band.bit_ofBit (b : Bool) : (Band.ofBit b).bit = b := by cases b <;> rfl
@[simp] theorem Deemph.ofBit_bit (b : Deemph) : Deemph.ofBit b.bit = b := by cases b <;> rfl
@[simp] theorem Deemph.bit_ofBit (b : Bool) : (Deemph.ofBit b).bit = b := by cases b <;> rfl
@[simp] theorem Sound.ofBit_bit (b : Sound) : Sound.ofBit b.bit = b := by cases b <;> rfl
@[simp] theorem Sound.bit_ofBit (b : Bool) : (Sound.ofBit b).bit = b := by cases b <;> rfl
@[simp] theorem SearchDir.ofBit_bit (b : SearchDir) : SearchDir.ofBit b.bit = b := by cases b <;> rfl
@[simp] theorem SearchDir.bit_ofBit (b : Bool) : (SearchDir.ofBit b).bit = b := by cases b <;> rfl
@[simp] theorem Injection.ofBit_bit (b : Injection) : Injection.ofBit b.bit = b := by cases b <;> rfl
@[simp] theorem Injection.bit_ofBit (b : Bool) : (Injection.ofBit b).bit = b := by cases b <;> rfl
@[simp] theorem Clock.ofCode?_code (c : Clock) : Clock.ofCode? c.code = some c := by cases c <;> rfl
@[simp] theorem SearchThr.ofCode?_code (c : SearchThr) : SearchThr.ofCode? c.code = some c := by cases c <;> rfl

/-- Only code 3 names no clock option (30_encoding.md R87). -/
theorem Clock.ofCode?_eq_none (v : BitVec 2) : Clock.ofCode? v = none ↔ v = 3#2 := by
  revert v
  decide

/-- Only code 0 names no threshold (30_encoding.md R87). -/
theorem SearchThr.ofCode?_eq_none (v : BitVec 2) : SearchThr.ofCode? v = none ↔ v = 0#2 := by
  revert v
  decide

end Sys2Proof
end

