-- ==== Sys2Proof/Laws/Asm.lean ====
section
/-! SUPPORT. Operands written as numbers are read back (30_encoding.md R88). -/

namespace Sys2Proof.Machine

@[simp] theorem bitOperand_bitNum (own : OperandName → Option Bool) (b : Bool) :
    bitOperand own (bitNum b) = some b := by
  cases b <;> rfl

@[simp] theorem numOperand_num {w : Nat} (v : BitVec w) : numOperand w (.num v.toNat) = some v := by
  simp [numOperand, v.isLt]

@[simp] theorem clockOperand_num (v : BitVec 2) : clockOperand (.num v.toNat) = some v := numOperand_num v

@[simp] theorem thresholdOperand_num (v : BitVec 2) : thresholdOperand (.num v.toNat) = some v := numOperand_num v

end Sys2Proof.Machine
end

