-- ==== Sys2Proof/Laws/Synth.lean ====
section
/-! SUPPORT. What the converter's functions compute: the two divisions, the clamp, the divisor and the frequency, and
the bounds of both. -/

namespace Sys2Proof.Machine

/-- `fdiv` is the greatest integer q with q * b <= a (00_scope.md R16). -/
theorem fdiv_spec (a b : Int) (hb : 0 < b) : fdiv a b * b ≤ a ∧ a < (fdiv a b + 1) * b :=
  ⟨Int.ediv_mul_le a hb.ne', Int.lt_ediv_add_one_mul_self a hb⟩

/-- A quotient is fixed by the two inequalities. -/
theorem fdiv_unique {a b q : Int} (hb : 0 < b) (h₁ : q * b ≤ a) (h₂ : a < (q + 1) * b) : fdiv a b = q := by
  obtain ⟨h₃, h₄⟩ := fdiv_spec a b hb
  have h₅ : fdiv a b * b < (q + 1) * b := lt_of_le_of_lt h₃ h₂
  have h₆ : q * b < (fdiv a b + 1) * b := lt_of_le_of_lt h₁ h₄
  have h₇ := lt_of_mul_lt_mul_right h₅ hb.le
  have h₈ := lt_of_mul_lt_mul_right h₆ hb.le
  omega

theorem fdiv_mono {a a' b : Int} (hb : 0 < b) (h : a ≤ a') : fdiv a b ≤ fdiv a' b :=
  Int.ediv_le_ediv hb h

/-- `rdivAway a 400000` as a linear fact: it is nearest to a / 400000, and a tie rounds away from zero (00_scope.md
R16). -/
theorem rdivAway_linear (a : Int) :
    (0 ≤ a → -200000 < 400000 * rdivAway a 400000 - a ∧ 400000 * rdivAway a 400000 - a ≤ 200000 ∧
      0 ≤ rdivAway a 400000) ∧
    (a < 0 → -200000 ≤ 400000 * rdivAway a 400000 - a ∧ 400000 * rdivAway a 400000 - a < 200000 ∧
      rdivAway a 400000 ≤ 0) := by
  unfold rdivAway fdiv
  split <;> constructor <;> intro h <;> omega

/-- `rdivAway a 400000` is nearest to a / 400000, a tie going away from zero (00_scope.md R16). -/
theorem rdivAway_spec (a : Int) :
    2 * |400000 * rdivAway a 400000 - a| ≤ 400000 ∧
      (2 * |400000 * rdivAway a 400000 - a| = 400000 → |a| < |400000 * rdivAway a 400000|) := by
  obtain ⟨hp, hn⟩ := rdivAway_linear a
  generalize rdivAway a 400000 = q at *
  have h₁ := abs_cases (400000 * q - a)
  have h₂ := abs_cases a
  have h₃ := abs_cases (400000 * q)
  constructor
  · omega
  · intro h
    omega

theorem rdivAway_mono {a a' : Int} (h : a ≤ a') : rdivAway a 400000 ≤ rdivAway a' 400000 := by
  unfold rdivAway fdiv
  split <;> (split <;> omega)

theorem numerator_eq (inj : Injection) (f : Nat) : numerator inj f = 4 * ((f : Int) + ifOffset inj) := by
  cases inj <;> simp [numerator, ifOffset] <;> ring

theorem numerator4_eq (inj : Injection) (ref d : Nat) :
    numerator4 inj ref d = (d : Int) * ref - 4 * ifOffset inj := by
  cases inj <;> simp [numerator4, ifOffset]

/-- REF_HZ is a well-formed reference for every clock option (00_scope.md R8). -/
theorem refHz_bounds (p : Params) (c : Clock) : 26423 ≤ refHz p c ∧ refHz p c ≤ 4294967295 := by
  cases c
  · simp [refHz, Config.refXtal32k]
  · exact ⟨p.ref13M.lower, p.ref13M.upper⟩
  · exact ⟨p.ref6M5.lower, p.ref6M5.upper⟩

theorem refOf_iff (p : Params) (c : Clock) (r : Nat) : RefOf p c r ↔ r = refHz p c := by
  cases c <;> rfl

theorem inBand_iff (b : Band) (f : Nat) : InBand b f ↔ bandLo b ≤ f ∧ f ≤ bandHi b := by
  cases b <;> rfl

/-- The clamp's result and when it differs from its argument (40_frequency.md R120). -/
theorem bandClamp_cases (f : Nat) (b : Band) :
    (f < bandLo b ∧ bandClamp f b = bandLo b) ∨ (bandHi b < f ∧ bandClamp f b = bandHi b) ∨
      (InBand b f ∧ bandClamp f b = f) := by
  rw [inBand_iff]
  unfold bandClamp clamp
  split
  · exact .inl ⟨‹_›, rfl⟩
  · split
    · exact .inr (.inl ⟨‹_›, rfl⟩)
    · exact .inr (.inr ⟨by omega, rfl⟩)

theorem bandClamp_inBand (f : Nat) (b : Band) : InBand b (bandClamp f b) := by
  have hb : bandLo b ≤ bandHi b := by cases b <;> decide
  have h := bandClamp_cases f b
  rw [inBand_iff] at *
  omega

theorem bandClamp_of_inBand {f : Nat} {b : Band} (h : InBand b f) : bandClamp f b = f := by
  have hc := bandClamp_cases f b
  rw [inBand_iff] at *
  omega

/-- `to_divisor` is the greatest integer d with d * ref <= num (40_frequency.md R121). -/
theorem toDivisor_spec (inj : Injection) {ref : Nat} (f : Nat) (hr : 0 < ref) :
    IsDivisorOf inj ref f (toDivisor inj ref f) := by
  unfold IsDivisorOf toDivisor
  rw [numerator_eq]
  exact fdiv_spec _ _ (by exact_mod_cast hr)

theorem isDivisorOf_unique {inj : Injection} {ref f : Nat} {d : Int} (hr : 0 < ref) (h : IsDivisorOf inj ref f d) :
    d = toDivisor inj ref f := by
  unfold IsDivisorOf at h
  rw [numerator_eq] at h
  exact (fdiv_unique (by exact_mod_cast hr) h.1 h.2).symm

/-- The numerator of an in-band frequency is positive and bounded (40_frequency.md R122). -/
theorem numerator_bounds (inj : Injection) {b : Band} {f : Nat} (h : InBand b f) :
    303100000 ≤ numerator inj f ∧ numerator inj f ≤ 432900000 := by
  cases b <;> cases inj <;> simp only [InBand, numerator] at * <;> omega

/-- An in-band divisor fits 14 bits for a well-formed reference (40_frequency.md R122). -/
theorem toDivisor_bounds (inj : Injection) {ref : Nat} {b : Band} {f : Nat} (h : InBand b f) (hr : 26423 ≤ ref) :
    0 ≤ toDivisor inj ref f ∧ toDivisor inj ref f ≤ 16383 := by
  obtain ⟨h₁, h₂⟩ := toDivisor_spec inj f (show 0 < ref by omega)
  obtain ⟨h₃, h₄⟩ := numerator_bounds inj h
  have hr' : (26423 : Int) ≤ ref := by exact_mod_cast hr
  constructor
  · by_contra hn
    have : (toDivisor inj ref f + 1) * (ref : Int) ≤ 0 := mul_nonpos_of_nonpos_of_nonneg (by omega) (by omega)
    omega
  · by_contra hn
    have : 16384 * (26423 : Int) ≤ toDivisor inj ref f * ref := by
      apply mul_le_mul <;> omega
    omega

theorem fromDivisor_spec (inj : Injection) (ref d : Nat) : IsFrequencyOf inj ref d (fromDivisor inj ref d) := by
  unfold IsFrequencyOf fromDivisor
  rw [numerator4_eq]
  exact rdivAway_spec _

/-- The frequency of a 14-bit divisor fits 32 bits for a well-formed reference (40_frequency.md R126). -/
theorem fromDivisor_bounds (inj : Injection) {ref d : Nat} (hd : d < 16384) (hr : ref ≤ 4294967295) :
    -2147483648 ≤ fromDivisor inj ref d ∧ fromDivisor inj ref d < 2147483648 := by
  have h := (fromDivisor_spec inj ref d).1
  have h₁ : (d : Int) * ref ≤ 16384 * 4294967295 := by
    apply mul_le_mul <;> omega
  have h₂ : 0 ≤ (d : Int) * ref := by positivity
  have h₃ := abs_cases (400000 * fromDivisor inj ref d - numerator4 inj ref d)
  cases inj <;> simp only [numerator4] at h h₃ <;> omega

end Sys2Proof.Machine
end

