-- ==== Sys2Proof/Laws/Codec.lean ====
section
/-! SUPPORT. What the codec's functions compute: the encoder's frame bit by bit, and the decoder's fields. -/

namespace Sys2Proof.Machine

/-- A field of three or more parts, read back bit by bit. -/
theorem packHi_packLo (d : Int) : packHi d ++ packLo d = divisorBits d := by
  apply BitVec.eq_of_getLsbD_eq
  intro k hk
  simp only [packHi, packLo, BitVec.getLsbD_append, BitVec.getLsbD_extractLsb']
  interval_cases k <;> simp

/-- The divisor an encoded frame carries. -/
theorem encodeFrame_divisor (p : Params) (c : Cfg) (d : Int) :
    (encodeFrame p c d).b0.extractLsb' 0 6 ++ (encodeFrame p c d).b1 = divisorBits d := by
  rw [← packHi_packLo]
  congr 1
  apply BitVec.eq_of_getLsbD_eq
  intro k hk
  simp only [encodeFrame, BitVec.getLsbD_append, BitVec.getLsbD_extractLsb']
  interval_cases k <;> simp

/-- `encode` follows the layout, bit by bit (30_encoding.md R90 to R100). -/
theorem encodeFrame_carries (p : Params) (c : Cfg) (d : Int) : FrameCarries p c (divisorBits d) (encodeFrame p c d) where
  mute   := by
    simp only [encodeFrame, BitVec.getLsbD_append]
    cases h : c.mute <;> simp [muteBit]
  sm     := by
    simp only [encodeFrame, BitVec.getLsbD_append]
    simp
  pllHi  := by
    apply BitVec.eq_of_getLsbD_eq
    intro k hk
    simp only [encodeFrame, packHi, BitVec.getLsbD_append, BitVec.getLsbD_extractLsb']
    interval_cases k <;> simp
  pllLo  := rfl
  sud    := by
    simp only [encodeFrame, BitVec.getLsbD_append]
    cases h : c.searchDir <;> simp [SearchDir.bit]
  ssl    := by
    apply BitVec.eq_of_getLsbD_eq
    intro k hk
    simp only [encodeFrame, BitVec.getLsbD_append, BitVec.getLsbD_extractLsb']
    cases h : c.searchThr <;> interval_cases k <;> simp [SearchThr.code]
  hlsi   := by
    simp only [encodeFrame, BitVec.getLsbD_append]
    cases h : c.inj <;> simp [Injection.bit]
  ms     := by
    simp only [encodeFrame, BitVec.getLsbD_append]
    cases h : c.sound <;> simp [Sound.bit]
  mr     := by
    simp only [encodeFrame, BitVec.getLsbD_append]
    cases h : c.mute <;> simp [muteRightBit]
  ml     := by
    simp only [encodeFrame, BitVec.getLsbD_append]
    cases h : c.mute <;> simp [muteLeftBit]
  swp1   := by
    simp only [encodeFrame, BitVec.getLsbD_append]
    simp
  swp2   := by
    simp only [encodeFrame, BitVec.getLsbD_append]
    simp
  stby   := by
    simp only [encodeFrame, BitVec.getLsbD_append]
    simp
  bl     := by
    simp only [encodeFrame, BitVec.getLsbD_append]
    cases h : c.band <;> simp [Band.bit]
  xtal   := by
    simp only [encodeFrame, BitVec.getLsbD_append]
    cases h : c.clk <;> simp [xtalBit]
  smute  := by
    simp only [encodeFrame, BitVec.getLsbD_append]
    simp
  hcc    := by
    simp only [encodeFrame, BitVec.getLsbD_append]
    simp
  snc    := by
    simp only [encodeFrame, BitVec.getLsbD_append]
    simp
  si     := by
    simp only [encodeFrame, BitVec.getLsbD_append]
    cases h : p.si <;> simp [searchIndicatorBit, h]
  pllref := by
    simp only [encodeFrame, BitVec.getLsbD_append]
    cases h : c.clk <;> simp [pllrefBit]
  dtc    := by
    simp only [encodeFrame, BitVec.getLsbD_append]
    cases h : c.deemph <;> simp [Deemph.bit]
  zero   := by
    apply BitVec.eq_of_getLsbD_eq
    intro k hk
    simp only [encodeFrame, BitVec.getLsbD_append, BitVec.getLsbD_extractLsb']
    interval_cases k <;> simp

/-- `pack` of a divisor that fits 14 bits loses nothing (41_codec.md R141). -/
theorem divisorBits_toNat {d : Int} (h₀ : 0 ≤ d) (h₁ : d ≤ 16383) : ((divisorBits d).toNat : Int) = d := by
  unfold divisorBits
  rw [BitVec.toNat_ofInt]
  omega

/-- A signed value of 32 bits keeps its value. -/
theorem toInt_ofInt32 {v : Int} (h₀ : -2147483648 ≤ v) (h₁ : v < 2147483648) : (BitVec.ofInt 32 v).toInt = v := by
  rw [BitVec.toInt_ofInt]
  simp only [Int.bmod]
  omega

/-- `decode` reads the fields of the layout (41_codec.md R143). -/
theorem decodeFrame_statusOf (p : Params) (inj : Injection) (c : Clock) (f : Frame) :
    StatusOf p inj c f (decodeFrame f inj (refHz p c)) where
  ready  := rfl
  blf    := rfl
  divHi  := by
    apply BitVec.eq_of_getLsbD_eq
    intro k hk
    simp only [decodeFrame, unpack, BitVec.getLsbD_append, BitVec.getLsbD_extractLsb']
    interval_cases k <;> simp
  divLo  := by
    apply BitVec.eq_of_getLsbD_eq
    intro k hk
    simp only [decodeFrame, unpack, BitVec.getLsbD_append, BitVec.getLsbD_extractLsb']
    interval_cases k <;> simp
  stereo := rfl
  level  := rfl
  freq   := by
    intro ref hr
    rw [refOf_iff] at hr
    subst hr
    have hb := fromDivisor_bounds inj (unpack f.b0 f.b1).isLt (refHz_bounds p c).2
    simp only [decodeFrame]
    rw [toInt_ofInt32 hb.1 hb.2]
    exact fromDivisor_spec _ _ _
  raw    := rfl

end Sys2Proof.Machine
end

