-- ==== Sys2Proof/Laws/State.lean ====
section
/-! SUPPORT. What each field is after each of the state's basic updates. -/

namespace Sys2Proof.Machine

@[simp] theorem setLastCode_cfg (c : BitVec 3) (s : State) : (setLastCode c s).cfg = s.cfg := rfl
@[simp] theorem setLastCode_wf (c : BitVec 3) (s : State) : (setLastCode c s).wf = s.wf := rfl
@[simp] theorem setLastCode_wfValid (c : BitVec 3) (s : State) : (setLastCode c s).wfValid = s.wfValid := rfl
@[simp] theorem setLastCode_divLast (c : BitVec 3) (s : State) : (setLastCode c s).divLast = s.divLast := rfl
@[simp] theorem setLastCode_status (c : BitVec 3) (s : State) : (setLastCode c s).status = s.status := rfl
@[simp] theorem setLastCode_statusValid (c : BitVec 3) (s : State) : (setLastCode c s).statusValid = s.statusValid := rfl
@[simp] theorem setLastCode_result (c : BitVec 3) (s : State) : (setLastCode c s).result = s.result := rfl
@[simp] theorem setLastCode_resultValid (c : BitVec 3) (s : State) : (setLastCode c s).resultValid = s.resultValid := rfl
@[simp] theorem setLastCode_err (c : BitVec 3) (s : State) : (setLastCode c s).err = s.err := rfl
@[simp] theorem setLastCode_errFirst (c : BitVec 3) (s : State) : (setLastCode c s).errFirst = s.errFirst := rfl
@[simp] theorem setLastCode_lastCode (c : BitVec 3) (s : State) : (setLastCode c s).lastCode = c := rfl
@[simp] theorem setLastCode_trace (c : BitVec 3) (s : State) : (setLastCode c s).trace = s.trace := rfl
@[simp] theorem setLastCode_replies (c : BitVec 3) (s : State) : (setLastCode c s).replies = s.replies := rfl
@[simp] theorem setLastCode_params (c : BitVec 3) (s : State) : (setLastCode c s).params = s.params := rfl
@[simp] theorem setLastCode_host (c : BitVec 3) (s : State) : (setLastCode c s).host = s.host := rfl
@[simp] theorem setLastCode_env (c : BitVec 3) (s : State) : (setLastCode c s).env = s.env := rfl

@[simp] theorem setErrFlags_cfg (c : ErrCode) (s : State) : (setErrFlags c s).cfg = s.cfg := rfl
@[simp] theorem setErrFlags_wf (c : ErrCode) (s : State) : (setErrFlags c s).wf = s.wf := rfl
@[simp] theorem setErrFlags_wfValid (c : ErrCode) (s : State) : (setErrFlags c s).wfValid = s.wfValid := rfl
@[simp] theorem setErrFlags_divLast (c : ErrCode) (s : State) : (setErrFlags c s).divLast = s.divLast := rfl
@[simp] theorem setErrFlags_status (c : ErrCode) (s : State) : (setErrFlags c s).status = s.status := rfl
@[simp] theorem setErrFlags_statusValid (c : ErrCode) (s : State) : (setErrFlags c s).statusValid = s.statusValid := rfl
@[simp] theorem setErrFlags_result (c : ErrCode) (s : State) : (setErrFlags c s).result = s.result := rfl
@[simp] theorem setErrFlags_resultValid (c : ErrCode) (s : State) : (setErrFlags c s).resultValid = s.resultValid := rfl
@[simp] theorem setErrFlags_err (c : ErrCode) (s : State) : (setErrFlags c s).err = true := rfl
@[simp] theorem setErrFlags_errFirst (c : ErrCode) (s : State) : (setErrFlags c s).errFirst = (if s.err then s.errFirst else errBits c) := rfl
@[simp] theorem setErrFlags_lastCode (c : ErrCode) (s : State) : (setErrFlags c s).lastCode = errBits c := rfl
@[simp] theorem setErrFlags_trace (c : ErrCode) (s : State) : (setErrFlags c s).trace = s.trace := rfl
@[simp] theorem setErrFlags_replies (c : ErrCode) (s : State) : (setErrFlags c s).replies = s.replies := rfl
@[simp] theorem setErrFlags_params (c : ErrCode) (s : State) : (setErrFlags c s).params = s.params := rfl
@[simp] theorem setErrFlags_host (c : ErrCode) (s : State) : (setErrFlags c s).host = s.host := rfl
@[simp] theorem setErrFlags_env (c : ErrCode) (s : State) : (setErrFlags c s).env = s.env := rfl

@[simp] theorem memWrite_cfg (f : Frame) (s : State) : (memWrite f s).cfg = s.cfg := rfl
@[simp] theorem memWrite_wf (f : Frame) (s : State) : (memWrite f s).wf = s.wf := rfl
@[simp] theorem memWrite_wfValid (f : Frame) (s : State) : (memWrite f s).wfValid = s.wfValid := rfl
@[simp] theorem memWrite_divLast (f : Frame) (s : State) : (memWrite f s).divLast = s.divLast := rfl
@[simp] theorem memWrite_status (f : Frame) (s : State) : (memWrite f s).status = s.status := rfl
@[simp] theorem memWrite_statusValid (f : Frame) (s : State) : (memWrite f s).statusValid = s.statusValid := rfl
@[simp] theorem memWrite_result (f : Frame) (s : State) : (memWrite f s).result = s.result := rfl
@[simp] theorem memWrite_resultValid (f : Frame) (s : State) : (memWrite f s).resultValid = s.resultValid := rfl
@[simp] theorem memWrite_err (f : Frame) (s : State) : (memWrite f s).err = s.err := rfl
@[simp] theorem memWrite_errFirst (f : Frame) (s : State) : (memWrite f s).errFirst = s.errFirst := rfl
@[simp] theorem memWrite_lastCode (f : Frame) (s : State) : (memWrite f s).lastCode = s.lastCode := rfl
@[simp] theorem memWrite_trace (f : Frame) (s : State) : (memWrite f s).trace = s.trace ++ [.write Config.busAddr f (nextWriteAnswer s.env)] := rfl
@[simp] theorem memWrite_replies (f : Frame) (s : State) : (memWrite f s).replies = s.replies := rfl
@[simp] theorem memWrite_params (f : Frame) (s : State) : (memWrite f s).params = s.params := rfl
@[simp] theorem memWrite_host (f : Frame) (s : State) : (memWrite f s).host = s.host := rfl
@[simp] theorem memWrite_env (f : Frame) (s : State) : (memWrite f s).env = afterWriteAnswer s.env := rfl

@[simp] theorem memRead_cfg (s : State) : (memRead s).cfg = s.cfg := rfl
@[simp] theorem memRead_wf (s : State) : (memRead s).wf = s.wf := rfl
@[simp] theorem memRead_wfValid (s : State) : (memRead s).wfValid = s.wfValid := rfl
@[simp] theorem memRead_divLast (s : State) : (memRead s).divLast = s.divLast := rfl
@[simp] theorem memRead_status (s : State) : (memRead s).status = s.status := rfl
@[simp] theorem memRead_statusValid (s : State) : (memRead s).statusValid = s.statusValid := rfl
@[simp] theorem memRead_result (s : State) : (memRead s).result = s.result := rfl
@[simp] theorem memRead_resultValid (s : State) : (memRead s).resultValid = s.resultValid := rfl
@[simp] theorem memRead_err (s : State) : (memRead s).err = s.err := rfl
@[simp] theorem memRead_errFirst (s : State) : (memRead s).errFirst = s.errFirst := rfl
@[simp] theorem memRead_lastCode (s : State) : (memRead s).lastCode = s.lastCode := rfl
@[simp] theorem memRead_trace (s : State) : (memRead s).trace = s.trace ++ [.read Config.busAddr (nextReadAnswer s.env)] := rfl
@[simp] theorem memRead_replies (s : State) : (memRead s).replies = s.replies := rfl
@[simp] theorem memRead_params (s : State) : (memRead s).params = s.params := rfl
@[simp] theorem memRead_host (s : State) : (memRead s).host = s.host := rfl
@[simp] theorem memRead_env (s : State) : (memRead s).env = afterReadAnswer s.env := rfl

@[simp] theorem loadWriteFrame_cfg (s : State) : (loadWriteFrame s).cfg = clampWriteback s.params s.cfg := rfl
@[simp] theorem loadWriteFrame_wf (s : State) : (loadWriteFrame s).wf = uploadFrame s.params s.cfg := rfl
@[simp] theorem loadWriteFrame_wfValid (s : State) : (loadWriteFrame s).wfValid = true := rfl
@[simp] theorem loadWriteFrame_divLast (s : State) : (loadWriteFrame s).divLast = divisorBits (uploadDivisor s.params s.cfg) := rfl
@[simp] theorem loadWriteFrame_status (s : State) : (loadWriteFrame s).status = s.status := rfl
@[simp] theorem loadWriteFrame_statusValid (s : State) : (loadWriteFrame s).statusValid = s.statusValid := rfl
@[simp] theorem loadWriteFrame_result (s : State) : (loadWriteFrame s).result = s.result := rfl
@[simp] theorem loadWriteFrame_resultValid (s : State) : (loadWriteFrame s).resultValid = s.resultValid := rfl
@[simp] theorem loadWriteFrame_err (s : State) : (loadWriteFrame s).err = s.err := rfl
@[simp] theorem loadWriteFrame_errFirst (s : State) : (loadWriteFrame s).errFirst = s.errFirst := rfl
@[simp] theorem loadWriteFrame_lastCode (s : State) : (loadWriteFrame s).lastCode = s.lastCode := rfl
@[simp] theorem loadWriteFrame_trace (s : State) : (loadWriteFrame s).trace = s.trace := rfl
@[simp] theorem loadWriteFrame_replies (s : State) : (loadWriteFrame s).replies = s.replies := rfl
@[simp] theorem loadWriteFrame_params (s : State) : (loadWriteFrame s).params = s.params := rfl
@[simp] theorem loadWriteFrame_host (s : State) : (loadWriteFrame s).host = s.host := rfl
@[simp] theorem loadWriteFrame_env (s : State) : (loadWriteFrame s).env = s.env := rfl

@[simp] theorem setResult_cfg (v : Int) (s : State) : (setResult v s).cfg = s.cfg := rfl
@[simp] theorem setResult_wf (v : Int) (s : State) : (setResult v s).wf = s.wf := rfl
@[simp] theorem setResult_wfValid (v : Int) (s : State) : (setResult v s).wfValid = s.wfValid := rfl
@[simp] theorem setResult_divLast (v : Int) (s : State) : (setResult v s).divLast = s.divLast := rfl
@[simp] theorem setResult_status (v : Int) (s : State) : (setResult v s).status = s.status := rfl
@[simp] theorem setResult_statusValid (v : Int) (s : State) : (setResult v s).statusValid = s.statusValid := rfl
@[simp] theorem setResult_result (v : Int) (s : State) : (setResult v s).result = BitVec.ofInt 32 v := rfl
@[simp] theorem setResult_resultValid (v : Int) (s : State) : (setResult v s).resultValid = true := rfl
@[simp] theorem setResult_err (v : Int) (s : State) : (setResult v s).err = s.err := rfl
@[simp] theorem setResult_errFirst (v : Int) (s : State) : (setResult v s).errFirst = s.errFirst := rfl
@[simp] theorem setResult_lastCode (v : Int) (s : State) : (setResult v s).lastCode = codeOk := rfl
@[simp] theorem setResult_trace (v : Int) (s : State) : (setResult v s).trace = s.trace := rfl
@[simp] theorem setResult_replies (v : Int) (s : State) : (setResult v s).replies = s.replies := rfl
@[simp] theorem setResult_params (v : Int) (s : State) : (setResult v s).params = s.params := rfl
@[simp] theorem setResult_host (v : Int) (s : State) : (setResult v s).host = s.host := rfl
@[simp] theorem setResult_env (v : Int) (s : State) : (setResult v s).env = s.env := rfl

@[simp] theorem applyReset_cfg (s : State) : (applyReset s).cfg = s.params.resetCfg := rfl
@[simp] theorem applyReset_wfValid (s : State) : (applyReset s).wfValid = false := rfl
@[simp] theorem applyReset_statusValid (s : State) : (applyReset s).statusValid = false := rfl
@[simp] theorem applyReset_resultValid (s : State) : (applyReset s).resultValid = false := rfl
@[simp] theorem applyReset_err (s : State) : (applyReset s).err = false := rfl
@[simp] theorem applyReset_errFirst (s : State) : (applyReset s).errFirst = 0#3 := rfl
@[simp] theorem applyReset_lastCode (s : State) : (applyReset s).lastCode = 0#3 := rfl
@[simp] theorem applyReset_trace (s : State) : (applyReset s).trace = [] := rfl
@[simp] theorem applyReset_replies (s : State) : (applyReset s).replies = [] := rfl
@[simp] theorem applyReset_params (s : State) : (applyReset s).params = s.params := rfl
@[simp] theorem applyReset_host (s : State) : (applyReset s).host = s.host := rfl
@[simp] theorem applyReset_env (s : State) : (applyReset s).env = s.env := rfl

end Sys2Proof.Machine
end

