-- ==== Sys2Proof/Laws/Ops.lean ====
section
/-! SUPPORT. One lemma for each shared operation that says everything it can do, and from them what a command and a step
can do. -/

namespace Sys2Proof.Machine

/-- Raising an error code is the refusal the spec describes (60_exceptions.md R203). -/
theorem raiseErr_eq (c : ErrCode) (s : State) : raiseErr c s = refused (errBits c) s := rfl

/-- The clamp as the relation says it (40_frequency.md R120). -/
theorem bandClamp_clampedTo (f : Nat) (b : Band) : ClampedTo b f (bandClamp f b) := by
  refine ⟨bandClamp_inBand f b, fun h => bandClamp_of_inBand h, ?_, ?_⟩ <;> intro h x hx <;>
    have hc := bandClamp_cases f b <;> rw [inBand_iff] at * <;> omega

/-- The upload sequence is what 41_codec.md R144 says. -/
theorem uploadSequence_uploaded (s : State) : Uploaded s (uploadSequence s) := by
  have hin := bandClamp_inBand s.cfg.freq.toNat s.cfg.band
  have hb := refHz_bounds s.params s.cfg.clk
  have hd : 0 ≤ uploadDivisor s.params s.cfg ∧ uploadDivisor s.params s.cfg ≤ 16383 :=
    toDivisor_bounds s.cfg.inj hin hb.1
  refine ⟨refHz s.params s.cfg.clk, uploadFreq s.cfg, divisorBits (uploadDivisor s.params s.cfg),
    uploadFrame s.params s.cfg, (refOf_iff _ _ _).mpr rfl, bandClamp_clampedTo _ _, ?_, encodeFrame_carries _ _ _, ?_⟩
  · rw [divisorBits_toNat hd.1 hd.2]
    exact toDivisor_spec _ _ (by omega)
  · have hcode : writeCode (nextWriteAnswer s.env) = if nextWriteAnswer s.env = .ok then 0#3 else 5#3 := by
      cases nextWriteAnswer s.env <;> rfl
    simp only [uploadSequence, setLastCode, memWrite, loadWriteFrame, hcode]
    rfl

/-- A download whose read is answered OK (41_codec.md R147). -/
theorem downloadSequence_ok {s : State} {f : Frame} (h : nextReadAnswer s.env = .ok f) :
    downloadSequence s =
      { s with
        status      := decodeFrame f s.cfg.inj (refHz s.params s.cfg.clk)
        statusValid := true
        trace       := s.trace ++ [.read 0x60#7 (.ok f)]
        env         := afterReadAnswer s.env
        lastCode    := 0#3 } := by
  simp [downloadSequence, takeReadAnswer, memRead, setLastCode, h, codeOk, Config.busAddr]

/-- A download whose read fails (41_codec.md R147). -/
theorem downloadSequence_fail {s : State} (h : nextReadAnswer s.env = .fail) :
    downloadSequence s =
      { s with
        trace    := s.trace ++ [.read 0x60#7 .fail]
        env      := afterReadAnswer s.env
        lastCode := 5#3 } := by
  simp [downloadSequence, takeReadAnswer, memRead, setLastCode, h, codeTransport, Config.busAddr]

/-- The last step of a configuration command (42_config.md R160). -/
theorem finishConfig_configured (h : Bool) (c : Cfg) (s : State) :
    Configured h c s (finishConfig h { s with cfg := c }) := by
  cases h
  · exact uploadSequence_uploaded _
  · exact (if_pos rfl).mpr rfl

/-- A configuration command is refused for its reserved bits, refused for its value, or done (42_config.md R160). -/
theorem configCommand_cases (h fmt : Bool) (c : Option Cfg) (s : State) :
    (fmt = false ∧ configCommand h fmt c s = refused 2#3 s) ∨
    (fmt = true ∧ c = none ∧ configCommand h fmt c s = refused 3#3 s) ∨
    (∃ c', fmt = true ∧ c = some c' ∧ Configured h c' s (configCommand h fmt c s)) := by
  cases fmt
  · exact .inl ⟨rfl, rfl⟩
  · cases c with
    | none => exact .inr (.inl ⟨rfl, rfl, rfl⟩)
    | some c' => exact .inr (.inr ⟨c', rfl, rfl, finishConfig_configured h c' s⟩)

/-- What a command can do when it gives a next state: it is refused, NOP clears LAST_CODE, a configuration command writes
a configuration that differs in no field but its own, UPLOAD uploads, DOWNLOAD downloads, a converter command writes
RESULT. -/
inductive CommandEffect (i : Instr) (s t : State) : Prop where
  | refusal (c : BitVec 3) (hc : 1 ≤ c.toNat ∧ c.toNat ≤ 4) (h : t = refused c s)
  | nop (hi : i = .nop false 0#32) (h : t = { s with lastCode := 0#3 })
  | config (c : Cfg) (hi : i.isConfig = true) (h : Configured i.hold c s t)
  | upload (hi : i = .upload false 0#32) (h : Uploaded s t)
  | download (hi : i = .download false 0#32) (h : t = downloadSequence s)
  | toDivisor (hi : ∃ bd v inj f, i = .toDivisor false false bd v inj f) (r : BitVec 32)
      (hr : ∃ b inj c ref f, RefOf s.params c ref ∧ InBand b f ∧ IsDivisorOf inj ref f r.toInt)
      (h : t = { s with result := r, resultValid := true, lastCode := 0#3 })
  | fromDivisor (hi : ∃ v inj d, i = .fromDivisor false 0#2 v inj 0#13 d) (r : BitVec 32)
      (hr : ∃ inj c ref, ∃ d : BitVec 14, RefOf s.params c ref ∧ IsFrequencyOf inj ref d.toNat r.toInt)
      (h : t = { s with result := r, resultValid := true, lastCode := 0#3 })

/-- A configuration command's effect, from its one shared operation. -/
theorem configCommand_effect (i : Instr) (fmt : Bool) (c : Option Cfg) (s : State) (hi : i.isConfig = true) :
    CommandEffect i s (configCommand i.hold fmt c s) := by
  obtain ⟨-, h⟩ | ⟨-, -, h⟩ | ⟨c', -, -, h⟩ := configCommand_cases i.hold fmt c s
  · exact .refusal 2#3 (by decide) h
  · exact .refusal 3#3 (by decide) h
  · exact .config c' hi h

theorem execNop_effect (h : Bool) (a : BitVec 32) (s : State) :
    ∃ t, execNop h a s = .next t ∧ CommandEffect (.nop h a) s t := by
  unfold execNop
  split
  · rename_i hc
    simp only [notHeld, formatZ, Bool.and_eq_true, Bool.not_eq_true', beq_iff_eq] at hc
    obtain ⟨rfl, rfl⟩ := hc
    exact ⟨_, rfl, .nop rfl rfl⟩
  · exact ⟨_, rfl, .refusal 2#3 (by decide) rfl⟩

theorem execUpload_effect (h : Bool) (a : BitVec 32) (s : State) :
    ∃ t, execUpload h a s = .next t ∧ CommandEffect (.upload h a) s t := by
  unfold execUpload
  split
  · rename_i hc
    simp only [notHeld, formatZ, Bool.and_eq_true, Bool.not_eq_true', beq_iff_eq] at hc
    obtain ⟨rfl, rfl⟩ := hc
    exact ⟨_, rfl, .upload rfl (uploadSequence_uploaded s)⟩
  · exact ⟨_, rfl, .refusal 2#3 (by decide) rfl⟩

theorem execDownload_effect (h : Bool) (a : BitVec 32) (s : State) :
    ∃ t, execDownload h a s = .next t ∧ CommandEffect (.download h a) s t := by
  unfold execDownload
  split
  · rename_i hc
    simp only [notHeld, formatZ, Bool.and_eq_true, Bool.not_eq_true', beq_iff_eq] at hc
    obtain ⟨rfl, rfl⟩ := hc
    exact ⟨_, rfl, .download rfl rfl⟩
  · exact ⟨_, rfl, .refusal 2#3 (by decide) rfl⟩

theorem execToDivisor_effect (h rsv : Bool) (bd : Band) (c : BitVec 2) (inj : Injection) (f : BitVec 27) (s : State) :
    ∃ t, execToDivisor h rsv bd c inj f s = .next t ∧ CommandEffect (.toDivisor h rsv bd c inj f) s t := by
  unfold execToDivisor
  split
  · rename_i hc
    simp only [notHeld, formatTD, Bool.and_eq_true, Bool.not_eq_true'] at hc
    obtain ⟨rfl, rfl⟩ := hc
    split
    · rename_i clk _
      split
      · exact ⟨_, rfl, .refusal 4#3 (by decide) rfl⟩
      · rename_i hr
        have hin : InBand bd f.toNat := by rw [inBand_iff]; omega
        have hb := refHz_bounds s.params clk
        have hd := toDivisor_bounds inj hin hb.1
        refine ⟨_, rfl, .toDivisor ⟨_, _, _, _, rfl⟩ (BitVec.ofInt 32 (toDivisor inj (refHz s.params clk) f.toNat))
          ⟨bd, inj, clk, _, _, (refOf_iff _ _ _).mpr rfl, hin, ?_⟩ rfl⟩
        rw [toInt_ofInt32 (by omega) (by omega)]
        exact toDivisor_spec _ _ (by omega)
    · exact ⟨_, rfl, .refusal 3#3 (by decide) rfl⟩
  · exact ⟨_, rfl, .refusal 2#3 (by decide) rfl⟩

theorem execFromDivisor_effect (h : Bool) (rh c : BitVec 2) (inj : Injection) (rl : BitVec 13) (d : BitVec 14)
    (s : State) :
    ∃ t, execFromDivisor h rh c inj rl d s = .next t ∧ CommandEffect (.fromDivisor h rh c inj rl d) s t := by
  unfold execFromDivisor
  split
  · rename_i hc
    simp only [notHeld, formatFD, Bool.and_eq_true, Bool.not_eq_true', beq_iff_eq] at hc
    obtain ⟨rfl, rfl, rfl⟩ := hc
    split
    · rename_i clk _
      have hd := fromDivisor_bounds inj d.isLt (refHz_bounds s.params clk).2
      refine ⟨_, rfl, .fromDivisor ⟨_, _, _, rfl⟩ (BitVec.ofInt 32 (fromDivisor inj (refHz s.params clk) d.toNat))
        ⟨inj, clk, _, d, (refOf_iff _ _ _).mpr rfl, ?_⟩ rfl⟩
      rw [toInt_ofInt32 hd.1 hd.2]
      exact fromDivisor_spec _ _ _
    · exact ⟨_, rfl, .refusal 3#3 (by decide) rfl⟩
  · exact ⟨_, rfl, .refusal 2#3 (by decide) rfl⟩

/-- Every command, in every state, gives a next state with one of the effects (43_control.md R192). -/
theorem exec_effect (i : Instr) (s : State) : ∃ t, exec i s = .next t ∧ CommandEffect i s t := by
  cases i with
  | nop h a => exact execNop_effect h a s
  | upload h a => exact execUpload_effect h a s
  | download h a => exact execDownload_effect h a s
  | toDivisor h rsv bd c inj f => exact execToDivisor_effect h rsv bd c inj f s
  | fromDivisor h rh c inj rl d => exact execFromDivisor_effect h rh c inj rl d s
  | _ => exact ⟨_, rfl, configCommand_effect _ _ _ _ rfl⟩

/-- What a command that gave a next state has done. -/
theorem exec_next {i : Instr} {s t : State} (h : exec i s = .next t) : CommandEffect i s t := by
  obtain ⟨t', h', he⟩ := exec_effect i s
  rw [h] at h'
  cases h'
  exact he

/-- A command word that decodes runs its command, and any other is refused with code 1 (43_control.md R191). -/
theorem runCommand_cases (w : CommandWord) (s : State) :
    (∃ i, decodeWord w = .command i ∧ runCommand w s = exec i s) ∨
    (∃ r, decodeWord w = .reject r ∧ runCommand w s = .next (refused 1#3 s)) := by
  unfold runCommand
  cases h : decodeWord w with
  | command i => exact .inl ⟨i, rfl, rfl⟩
  | reject r => exact .inr ⟨r, rfl, rfl⟩

/-- What a step that gives a next state has done. -/
theorem step_cases {s t : State} (h : step s = .next t) :
    (s.host = [] ∧ t = s) ∨
    (∃ rest, s.host = .reset :: rest ∧ t = applyReset { s with host := rest }) ∨
    (∃ n mask rest, s.host = .readReg n mask :: rest ∧
      t = { s with host := rest, replies := s.replies ++ [⟨n, mask, regWord s n &&& mask⟩] }) ∨
    (∃ w rest, s.host = .command w :: rest ∧ t = refused 1#3 { s with host := rest }) ∨
    (∃ w rest i, s.host = .command w :: rest ∧ decodeWord w = .command i ∧ CommandEffect i { s with host := rest } t) := by
  unfold step takeEvent at h
  split at h
  · cases h
    exact .inl ⟨‹_›, rfl⟩
  · rename_i e rest hh
    cases e with
    | reset =>
      cases h
      exact .inr (.inl ⟨rest, hh, rfl⟩)
    | readReg n mask =>
      simp only [hostEvent, hostRead] at h
      split at h
      · cases h
        exact .inr (.inr (.inl ⟨n, mask, rest, hh, rfl⟩))
      · cases h
    | command w =>
      simp only [hostEvent] at h
      obtain ⟨i, hd, hr⟩ | ⟨r, hd, hr⟩ := runCommand_cases w { s with host := rest }
      · rw [hr] at h
        exact .inr (.inr (.inr (.inr ⟨w, rest, i, hh, hd, exec_next h⟩)))
      · rw [hr] at h
        cases h
        exact .inr (.inr (.inr (.inl ⟨w, rest, hh, rfl⟩)))

end Sys2Proof.Machine
end

