-- ==== Sys2Proof/Laws/PerInstr.lean ====
section
/-! SUPPORT. Statements about every command, one lemma for each constructor. -/

namespace Sys2Proof.Laws.CommandField

/-- The word of a command has R = 0, its hold bit, its function code and its argument in the fields of
30_encoding.md R80, and the function code is one of the map (R84). -/
def Statement (i : Instr) : Prop :=
  wordR (encode i) = false ∧ wordH (encode i) = i.hold ∧ wordFunc (encode i) = i.func ∧ wordArg (encode i) = i.arg ∧
    (i.func.toNat ≤ 0x15 ∨ (0x20 ≤ i.func.toNat ∧ i.func.toNat ≤ 0x23))

/-- The fields of an encoded command, whatever the command. -/
theorem fields (i : Instr) :
    wordR (encode i) = false ∧ wordH (encode i) = i.hold ∧ wordFunc (encode i) = i.func ∧ wordArg (encode i) = i.arg := by
  simp [encode]

theorem nop (h : Bool) (arg : BitVec 32) : Statement (.nop h arg) :=
  ⟨(fields _).1, (fields _).2.1, (fields _).2.2.1, (fields _).2.2.2, by simp [Instr.func]⟩

theorem mute (h : Bool) (arg : BitVec 32) : Statement (.mute h arg) :=
  ⟨(fields _).1, (fields _).2.1, (fields _).2.2.1, (fields _).2.2.2, by simp [Instr.func]⟩

theorem muteLeft (h : Bool) (arg : BitVec 32) : Statement (.muteLeft h arg) :=
  ⟨(fields _).1, (fields _).2.1, (fields _).2.2.1, (fields _).2.2.2, by simp [Instr.func]⟩

theorem muteRight (h : Bool) (arg : BitVec 32) : Statement (.muteRight h arg) :=
  ⟨(fields _).1, (fields _).2.1, (fields _).2.2.1, (fields _).2.2.2, by simp [Instr.func]⟩

theorem unmute (h : Bool) (arg : BitVec 32) : Statement (.unmute h arg) :=
  ⟨(fields _).1, (fields _).2.1, (fields _).2.2.1, (fields _).2.2.2, by simp [Instr.func]⟩

theorem unmuteLeft (h : Bool) (arg : BitVec 32) : Statement (.unmuteLeft h arg) :=
  ⟨(fields _).1, (fields _).2.1, (fields _).2.2.1, (fields _).2.2.2, by simp [Instr.func]⟩

theorem unmuteRight (h : Bool) (arg : BitVec 32) : Statement (.unmuteRight h arg) :=
  ⟨(fields _).1, (fields _).2.1, (fields _).2.2.1, (fields _).2.2.2, by simp [Instr.func]⟩

theorem setStandby (h : Bool) (rsv : BitVec 31) (v : Bool) : Statement (.setStandby h rsv v) :=
  ⟨(fields _).1, (fields _).2.1, (fields _).2.2.1, (fields _).2.2.2, by simp [Instr.func]⟩

theorem setBand (h : Bool) (rsv : BitVec 31) (v : Band) : Statement (.setBand h rsv v) :=
  ⟨(fields _).1, (fields _).2.1, (fields _).2.2.1, (fields _).2.2.2, by simp [Instr.func]⟩

theorem setSoftMute (h : Bool) (rsv : BitVec 31) (v : Bool) : Statement (.setSoftMute h rsv v) :=
  ⟨(fields _).1, (fields _).2.1, (fields _).2.2.1, (fields _).2.2.2, by simp [Instr.func]⟩

theorem setClock (h : Bool) (rsv : BitVec 30) (v : BitVec 2) : Statement (.setClock h rsv v) :=
  ⟨(fields _).1, (fields _).2.1, (fields _).2.2.1, (fields _).2.2.2, by simp [Instr.func]⟩

theorem setHighCut (h : Bool) (rsv : BitVec 31) (v : Bool) : Statement (.setHighCut h rsv v) :=
  ⟨(fields _).1, (fields _).2.1, (fields _).2.2.1, (fields _).2.2.2, by simp [Instr.func]⟩

theorem setNoiseCancel (h : Bool) (rsv : BitVec 31) (v : Bool) : Statement (.setNoiseCancel h rsv v) :=
  ⟨(fields _).1, (fields _).2.1, (fields _).2.2.1, (fields _).2.2.2, by simp [Instr.func]⟩

theorem setDeemphasis (h : Bool) (rsv : BitVec 31) (v : Deemph) : Statement (.setDeemphasis h rsv v) :=
  ⟨(fields _).1, (fields _).2.1, (fields _).2.2.1, (fields _).2.2.2, by simp [Instr.func]⟩

theorem setFrequency (h : Bool) (f : BitVec 32) : Statement (.setFrequency h f) :=
  ⟨(fields _).1, (fields _).2.1, (fields _).2.2.1, (fields _).2.2.2, by simp [Instr.func]⟩

theorem setSoundMode (h : Bool) (rsv : BitVec 31) (v : Sound) : Statement (.setSoundMode h rsv v) :=
  ⟨(fields _).1, (fields _).2.1, (fields _).2.2.1, (fields _).2.2.2, by simp [Instr.func]⟩

theorem setSearchMode (h : Bool) (rsv : BitVec 31) (v : Bool) : Statement (.setSearchMode h rsv v) :=
  ⟨(fields _).1, (fields _).2.1, (fields _).2.2.1, (fields _).2.2.2, by simp [Instr.func]⟩

theorem setSearchDir (h : Bool) (rsv : BitVec 31) (v : SearchDir) : Statement (.setSearchDir h rsv v) :=
  ⟨(fields _).1, (fields _).2.1, (fields _).2.2.1, (fields _).2.2.2, by simp [Instr.func]⟩

theorem setSearchThreshold (h : Bool) (rsv : BitVec 30) (v : BitVec 2) : Statement (.setSearchThreshold h rsv v) :=
  ⟨(fields _).1, (fields _).2.1, (fields _).2.2.1, (fields _).2.2.2, by simp [Instr.func]⟩

theorem setInjection (h : Bool) (rsv : BitVec 31) (v : Injection) : Statement (.setInjection h rsv v) :=
  ⟨(fields _).1, (fields _).2.1, (fields _).2.2.1, (fields _).2.2.2, by simp [Instr.func]⟩

theorem setPort1 (h : Bool) (rsv : BitVec 31) (v : Bool) : Statement (.setPort1 h rsv v) :=
  ⟨(fields _).1, (fields _).2.1, (fields _).2.2.1, (fields _).2.2.2, by simp [Instr.func]⟩

theorem setPort2 (h : Bool) (rsv : BitVec 31) (v : Bool) : Statement (.setPort2 h rsv v) :=
  ⟨(fields _).1, (fields _).2.1, (fields _).2.2.1, (fields _).2.2.2, by simp [Instr.func]⟩

theorem upload (h : Bool) (arg : BitVec 32) : Statement (.upload h arg) :=
  ⟨(fields _).1, (fields _).2.1, (fields _).2.2.1, (fields _).2.2.2, by simp [Instr.func]⟩

theorem download (h : Bool) (arg : BitVec 32) : Statement (.download h arg) :=
  ⟨(fields _).1, (fields _).2.1, (fields _).2.2.1, (fields _).2.2.2, by simp [Instr.func]⟩

theorem toDivisor (h : Bool) (rsv : Bool) (bd : Band) (c : BitVec 2) (i : Injection) (f : BitVec 27) : Statement (.toDivisor h rsv bd c i f) :=
  ⟨(fields _).1, (fields _).2.1, (fields _).2.2.1, (fields _).2.2.2, by simp [Instr.func]⟩

theorem fromDivisor (h : Bool) (rsvHi : BitVec 2) (c : BitVec 2) (i : Injection) (rsvLo : BitVec 13) (d : BitVec 14) : Statement (.fromDivisor h rsvHi c i rsvLo d) :=
  ⟨(fields _).1, (fields _).2.1, (fields _).2.2.1, (fields _).2.2.2, by simp [Instr.func]⟩

end Sys2Proof.Laws.CommandField
end

