-- ==== Sys2Proof/Tests/Slice0.lean ====
section
/-! SUPPORT. Tests, and for each obligation that has hypotheses a witness that meets them. Expected values are those of
spec/95_test_vectors.md and the worked examples of 42_config.md; words are written from the tables of 30_encoding.md. -/

namespace Sys2Proof.Tests

open Sys2Proof Sys2Proof.Machine

/-! ## Decoding: one word for each command, from 30_encoding.md R80, R82, R84 -/

theorem test_decode_nop : decodeWord 0x0000000000#40 = .command (.nop false 0#32) := by decide
theorem test_decode_mute : decodeWord 0x0100000000#40 = .command (.mute false 0#32) := by decide
theorem test_decode_muteLeft : decodeWord 0x4200000000#40 = .command (.muteLeft true 0#32) := by decide
theorem test_decode_muteRight : decodeWord 0x0300000000#40 = .command (.muteRight false 0#32) := by decide
theorem test_decode_unmute : decodeWord 0x0400000000#40 = .command (.unmute false 0#32) := by decide
theorem test_decode_unmuteLeft : decodeWord 0x0500000000#40 = .command (.unmuteLeft false 0#32) := by decide
theorem test_decode_unmuteRight : decodeWord 0x0600000000#40 = .command (.unmuteRight false 0#32) := by decide
theorem test_decode_setStandby : decodeWord 0x0700000001#40 = .command (.setStandby false 0#31 true) := by decide
theorem test_decode_setBand : decodeWord 0x4800000001#40 = .command (.setBand true 0#31 .japan) := by decide
theorem test_decode_setSoftMute : decodeWord 0x0900000001#40 = .command (.setSoftMute false 0#31 true) := by decide
theorem test_decode_setClock : decodeWord 0x0A00000002#40 = .command (.setClock false 0#30 2#2) := by decide
theorem test_decode_setHighCut : decodeWord 0x4B00000001#40 = .command (.setHighCut true 0#31 true) := by decide
theorem test_decode_setNoiseCancel : decodeWord 0x0C00000001#40 = .command (.setNoiseCancel false 0#31 true) := by decide
theorem test_decode_setDeemphasis : decodeWord 0x0D00000001#40 = .command (.setDeemphasis false 0#31 .de75) := by decide
theorem test_decode_setFrequency : decodeWord 0x0E05F5E100#40 = .command (.setFrequency false 100000000#32) := by decide
theorem test_decode_setSoundMode : decodeWord 0x4F00000001#40 = .command (.setSoundMode true 0#31 .mono) := by decide
theorem test_decode_setSearchMode : decodeWord 0x1000000001#40 = .command (.setSearchMode false 0#31 true) := by decide
theorem test_decode_setSearchDir : decodeWord 0x5100000000#40 = .command (.setSearchDir true 0#31 .down) := by decide
theorem test_decode_setSearchThreshold : decodeWord 0x1200000003#40 = .command (.setSearchThreshold false 0#30 3#2) := by decide
theorem test_decode_setInjection : decodeWord 0x1300000000#40 = .command (.setInjection false 0#31 .low) := by decide
theorem test_decode_setPort1 : decodeWord 0x1400000001#40 = .command (.setPort1 false 0#31 true) := by decide
theorem test_decode_setPort2 : decodeWord 0x1500000001#40 = .command (.setPort2 false 0#31 true) := by decide
theorem test_decode_upload : decodeWord 0x6000000000#40 = .command (.upload true 0#32) := by decide
theorem test_decode_download : decodeWord 0x2100000005#40 = .command (.download false 5#32) := by decide
theorem test_decode_toDivisor :
    decodeWord 0x22456C8CC0#40 = .command (.toDivisor false false .japan 0#2 .low 91000000#27) := by decide
theorem test_decode_fromDivisor :
    decodeWord 0x2328001C2A#40 = .command (.fromDivisor false 0#2 2#2 .high 0#13 7210#14) := by decide

/-- 30_encoding.md R85, at the ends of each range. -/
theorem test_decode_rejects :
    decodeWord 0x8000000000#40 = .reject .reservedBit39 ∧
    decodeWord 0x1600000000#40 = .reject (.unassignedFunc 0x16#6) ∧
    decodeWord 0x1F00000000#40 = .reject (.unassignedFunc 0x1F#6) ∧
    decodeWord 0x2400000000#40 = .reject (.unassignedFunc 0x24#6) ∧
    decodeWord 0x3F00000000#40 = .reject (.unassignedFunc 0x3F#6) := by decide

/-- The host's numbering of a table word. -/
theorem test_decodeTableWord :
    decodeTableWord 40 0x0E055BC3E0 = some (.setFrequency false 89900000#32) ∧ decodeTableWord 40 0x1600000000 = none := by
  decide

/-! ## Well-formedness: one ill-formed command for each check -/

theorem test_wf_hold_refused : (Instr.upload true 0#32).wellFormed = false := by decide
theorem test_wf_formatZ_refused : (Instr.mute false 1#32).wellFormed = false := by decide
theorem test_wf_formatB_refused : (Instr.setStandby false 1#31 false).wellFormed = false := by decide
theorem test_wf_formatE2_refused : (Instr.setClock false 1#30 0#2).wellFormed = false := by decide
theorem test_wf_formatTD_refused : (Instr.toDivisor false true .usEu 0#2 .high 89900000#27).wellFormed = false := by decide
theorem test_wf_formatFD_refused :
    (Instr.fromDivisor false 1#2 0#2 .high 0#13 11001#14).wellFormed = false ∧
    (Instr.fromDivisor false 0#2 0#2 .high 1#13 11001#14).wellFormed = false := by decide
theorem test_wf_clock_refused : (Instr.setClock false 0#30 3#2).wellFormed = false := by decide
theorem test_wf_threshold_refused : (Instr.setSearchThreshold true 0#30 0#2).wellFormed = false := by decide
theorem test_wf_converterClock_refused :
    (Instr.toDivisor false false .usEu 3#2 .high 89900000#27).wellFormed = false ∧
    (Instr.fromDivisor false 0#2 3#2 .high 0#13 11001#14).wellFormed = false := by decide
theorem test_wf_held_config_accepted : (Instr.setClock true 0#30 2#2).wellFormed = true := by decide

/-! ## Single steps from the states of spec/95 -/

/-- REF_HZ = 50000 for both open clocks, as the vectors that need it choose. -/
def params50k : Params where
  ref13M         := ⟨50000, by decide, by decide⟩
  ref6M5         := ⟨50000, by decide, by decide⟩
  muteBothLR     := false
  si             := .zero
  clampWriteback := false
  resetCfg       := Config.defaultResetCfg

/-- S0, with one answer of each kind settled. -/
def s0 : State :=
  { State.resetWith params50k with env := ⟨[.ok], [.ok ⟨0xAA#8, 0xF9#8, 0x80#8, 0xA0#8, 0x00#8⟩], 0⟩ }

/-- S89: S0 with CFG.FREQ = 89 900 000. -/
def s89 : State := { s0 with cfg := { Config.defaultResetCfg with freq := 89900000#32 } }

/-- S89 with another mute selector. -/
def muted (m : MuteSel) : State := { s89 with cfg := { s89.cfg with mute := m } }

/-- The state after the one command of word `w`. -/
def after (w : CommandWord) (s : State) : State :=
  match step { s with host := [.command w] } with
  | .next t => t
  | .fault _ => s
  | .refused _ => s

/-- The trace after one frame that was answered OK. -/
def sent (b0 b1 b2 b3 b4 : Byte) : List TraceEntry := [.write 0x60#7 ⟨b0, b1, b2, b3, b4⟩ .ok]

theorem test_nop_clears_lastCode :
    regWord (after 0x0000000000#40 { s0 with err := true, errFirst := 3#3, lastCode := 3#3 }) 9#4 = 0x00000007#32 := by
  decide

theorem test_mute : (after 0x0100000000#40 s89).trace = sent 0xAA#8 0xF9#8 0xD0#8 0x10#8 0x00#8 := by decide
theorem test_mute_both_lr :
    (after 0x0100000000#40 { s89 with params := { params50k with muteBothLR := true } }).trace =
      sent 0xAA#8 0xF9#8 0xD6#8 0x10#8 0x00#8 := by decide
theorem test_muteLeft : (after 0x0200000000#40 (muted .both)).trace = sent 0x2A#8 0xF9#8 0xD2#8 0x10#8 0x00#8 := by decide
theorem test_muteRight : (after 0x0300000000#40 s89).trace = sent 0x2A#8 0xF9#8 0xD4#8 0x10#8 0x00#8 := by decide
theorem test_unmute : (after 0x0400000000#40 (muted .both)).trace = sent 0x2A#8 0xF9#8 0xD0#8 0x10#8 0x00#8 := by decide
theorem test_unmuteLeft : (after 0x0500000000#40 (muted .both)).trace = sent 0x2A#8 0xF9#8 0xD4#8 0x10#8 0x00#8 := by decide
theorem test_unmuteLeft_left : (after 0x0500000000#40 (muted .left)).cfg.mute = .none := by decide
theorem test_unmuteRight : (after 0x0600000000#40 (muted .both)).trace = sent 0x2A#8 0xF9#8 0xD2#8 0x10#8 0x00#8 := by decide
theorem test_unmuteRight_left : (after 0x0600000000#40 (muted .left)).cfg.mute = .left := by decide
theorem test_setStandby : (after 0x0700000001#40 s89).trace = sent 0x2A#8 0xF9#8 0xD0#8 0x50#8 0x00#8 := by decide
theorem test_setBand : (after 0x0800000001#40 s89).trace = sent 0x2A#8 0xF9#8 0xD0#8 0x30#8 0x00#8 := by decide
theorem test_setSoftMute : (after 0x0900000001#40 s89).trace = sent 0x2A#8 0xF9#8 0xD0#8 0x18#8 0x00#8 := by decide
theorem test_setClock_13m : (after 0x0A00000001#40 s89).trace = sent 0x1C#8 0x2A#8 0xD0#8 0x00#8 0x00#8 := by decide
theorem test_setClock_6m5 : (after 0x0A00000002#40 s89).trace = sent 0x1C#8 0x2A#8 0xD0#8 0x00#8 0x80#8 := by decide
theorem test_setHighCut : (after 0x0B00000001#40 s89).trace = sent 0x2A#8 0xF9#8 0xD0#8 0x14#8 0x00#8 := by decide
theorem test_setNoiseCancel : (after 0x0C00000001#40 s89).trace = sent 0x2A#8 0xF9#8 0xD0#8 0x12#8 0x00#8 := by decide
theorem test_setDeemphasis : (after 0x0D00000001#40 s89).trace = sent 0x2A#8 0xF9#8 0xD0#8 0x10#8 0x40#8 := by decide
theorem test_setFrequency_clamps : (after 0x0E00000000#40 s0).trace = sent 0x29#8 0xD4#8 0xD0#8 0x10#8 0x00#8 := by decide
theorem test_setFrequency_writeback :
    (after 0x0E067179A0#40 s0).cfg.freq = 0x067179A0#32 ∧
    (after 0x0E067179A0#40 { s0 with params := { params50k with clampWriteback := true } }).cfg.freq = 0x066FF300#32 := by
  decide
theorem test_setSoundMode : (after 0x0F00000001#40 s89).trace = sent 0x2A#8 0xF9#8 0xD8#8 0x10#8 0x00#8 := by decide
theorem test_setSearchMode : (after 0x1000000001#40 s89).trace = sent 0x6A#8 0xF9#8 0xD0#8 0x10#8 0x00#8 := by decide
theorem test_setSearchMode_si :
    (after 0x1000000001#40 { s89 with params := { params50k with si := .searchMode } }).trace =
      sent 0x6A#8 0xF9#8 0xD0#8 0x11#8 0x00#8 := by decide
theorem test_setSearchDir : (after 0x1100000000#40 s89).trace = sent 0x2A#8 0xF9#8 0x50#8 0x10#8 0x00#8 := by decide
theorem test_setSearchThreshold_high : (after 0x1200000003#40 s89).trace = sent 0x2A#8 0xF9#8 0xF0#8 0x10#8 0x00#8 := by decide
theorem test_setSearchThreshold_low : (after 0x1200000001#40 s89).trace = sent 0x2A#8 0xF9#8 0xB0#8 0x10#8 0x00#8 := by decide
theorem test_setInjection : (after 0x1300000000#40 s89).trace = sent 0x2A#8 0xC2#8 0xC0#8 0x10#8 0x00#8 := by decide
theorem test_setPort1 : (after 0x1400000001#40 s89).trace = sent 0x2A#8 0xF9#8 0xD1#8 0x10#8 0x00#8 := by decide
theorem test_setPort2 : (after 0x1500000001#40 s89).trace = sent 0x2A#8 0xF9#8 0xD0#8 0x90#8 0x00#8 := by decide
/-- A held command writes CFG and sends nothing (95 section 2.7). -/
theorem test_held_mute :
    regWord (after 0x4100000000#40 s89) 1#4 = 0x0000034C#32 ∧ (after 0x4100000000#40 s89).trace = [] := by decide
theorem test_upload : regWord (after 0x2000000000#40 s89) 3#4 = 0x802AF900#32 := by decide
theorem test_upload_fail :
    regWord (after 0x2000000000#40 { s89 with env := ⟨[.fail], [], 0⟩ }) 2#4 = 0x2AF9D010#32 ∧
    regWord (after 0x2000000000#40 { s89 with env := ⟨[.fail], [], 0⟩ }) 9#4 = 0x00000050#32 := by decide
theorem test_download :
    regWord (after 0x2100000000#40 s89) 4#4 = 0x80157CD5#32 ∧ regWord (after 0x2100000000#40 s89) 5#4 = 0x00000383#32 := by
  decide
theorem test_download_negative :
    regWord (after 0x2100000000#40 { s89 with env := ⟨[], [.ok ⟨0#8, 0#8, 0#8, 0#8, 0#8⟩], 0⟩ }) 5#4 = 0xFFFFFFFE#32 := by
  decide
theorem test_toDivisor : (after 0x220D5BC3E0#40 s0).result = 11001#32 := by decide
theorem test_toDivisor_range : regWord (after 0x220E6FF301#40 s0) 9#4 = 0x00000049#32 := by decide
theorem test_fromDivisor : (after 0x2308002AF9#40 s0).result = 899#32 := by decide
theorem test_fromDivisor_negative : regWord (after 0x2308000000#40 s0) 8#4 = 0xFFFFFFFE#32 := by decide

/-- The order of the checks (95 section 2.8). -/
theorem test_check_order :
    regWord (after 0xE230000000#40 s0) 9#4 = 0x00000013#32 ∧ regWord (after 0x6230000001#40 s0) 9#4 = 0x00000025#32 ∧
    regWord (after 0x2230000001#40 s0) 9#4 = 0x00000037#32 := by decide

/-- ERR_FIRST keeps the first code (95 section 2.8). -/
theorem test_first_code_kept :
    regWord (after 0x0A00000003#40 { s0 with err := true, errFirst := 1#3, lastCode := 1#3 }) 9#4 = 0x00000033#32 := by
  decide

/-! ## The read port and reset (95 section 2.10) -/

theorem test_reset_registers :
    regWord State.reset 0#4 = 0x053724E0#32 ∧ regWord State.reset 1#4 = 0x00000340#32 ∧
    regWord State.reset 9#4 = 0#32 ∧ regWord State.reset 15#4 = 0#32 := by decide

/-- Register 3 after reset: bit 31 is readable, the bits below it are not. -/
theorem test_read_unspecified :
    (match step { s0 with host := [.readReg 3#4 0x80000000#32] } with | .next t => t.replies | _ => []) =
      [⟨3#4, 0x80000000#32, 0#32⟩] ∧
    (match step { s0 with host := [.readReg 3#4 0x00000001#32] } with | .fault f => f | _ => .unspecifiedRead 0#4) =
      .unspecifiedRead 3#4 := by decide

/-! ## Assembler text (30_encoding.md R88) -/

theorem test_text_examples :
    readText "SET_FREQUENCY 89900000" = .command (.setFrequency false 89900000#32) ∧
    readText "SET_BAND.H JAPAN" = .command (.setBand true 0#31 .japan) ∧
    readText "UPLOAD ; send it" = .command (.upload false 0#32) := by decide

theorem test_text_converters :
    readText "TO_DIVISOR 89900000, HIGH, XTAL_32K, US_EU" =
      .command (.toDivisor false false .usEu 0#2 .high 89900000#27) ∧
    readText "FROM_DIVISOR 11001, HIGH, XTAL_32K" = .command (.fromDivisor false 0#2 0#2 .high 0#13 11001#14) ∧
    readText "; nothing" = .empty ∧ readText "SET_BAND STEREO" = .malformed := by decide

/-! ## Host procedures: program P4's edge case (70_reset_and_hazards.md R246) -/

/-- The search above the band's upper limit mutes, unmutes and fails without a poll. -/
theorem test_search_edge :
    (search .up 108000001#32 .tmid 1 { s0 with env := ⟨[.ok, .ok], [], 0⟩ }).1 = .failure := by decide

/-! ## Witnesses: states and operands that meet each obligation's hypotheses -/

/-- S89 with one host event pending. -/
def pending (e : HostEvent) : State := { s89 with host := [e] }

/-- S89 after one upload that was answered OK and one refusal, with a command pending. -/
def uploadedState : State :=
  { s89 with
    wf       := ⟨0x2A#8, 0xF9#8, 0xD0#8, 0x10#8, 0x00#8⟩
    wfValid  := true
    divLast  := 11001#14
    trace    := sent 0x2A#8 0xF9#8 0xD0#8 0x10#8 0x00#8
    err      := true
    errFirst := 3#3
    lastCode := 2#3
    host     := [.command 0x0100000000#40] }

theorem witness_EncodeDecodeAgree : decodeWord 0x2308002AF9#40 = .command (.fromDivisor false 0#2 0#2 .high 0#13 11001#14) := by
  decide

/-- Each clause of the illegal opcodes, at both ends of its range, and a legal word for the second part. -/
theorem witness_IllegalOpcodesRefused :
    (0x8000000000#40).getLsbD 39 = true ∧
    ((0x1600000000#40).extractLsb' 32 6).toNat = 0x16 ∧ ((0x1F00000000#40).extractLsb' 32 6).toNat = 0x1F ∧
    ((0x2400000000#40).extractLsb' 32 6).toNat = 0x24 ∧ ((0x3F00000000#40).extractLsb' 32 6).toNat = 0x3F ∧
    ¬ ((0x2300000000#40).getLsbD 39 = true ∨
      (0x16 ≤ ((0x2300000000#40).extractLsb' 32 6).toNat ∧ ((0x2300000000#40).extractLsb' 32 6).toNat ≤ 0x1F) ∨
      0x24 ≤ ((0x2300000000#40).extractLsb' 32 6).toNat) := by decide

theorem witness_StepRunsDecodedCommand :
    (pending (.command 0x0700000001#40)).host = .command 0x0700000001#40 :: [] ∧
    decodeWord 0x0700000001#40 = .command (.setStandby false 0#31 true) ∧
    (pending .reset).host = .reset :: [] ∧ s89.host = [] := by decide

theorem witness_AssemblerReachesEveryCommand :
    (Instr.toDivisor false false .japan 2#2 .low 134217727#27).wellFormed = true := by decide

theorem witness_FailedCheckRefusesPrecisely :
    decodeWord 0x8000000000#40 = .reject .reservedBit39 ∧
    refusalCode (.nop true 0#32) = some 2#3 ∧ refusalCode (.setClock true 0#30 3#2) = some 3#3 ∧
    refusalCode (.toDivisor false false .usEu 0#2 .high 87499999#27) = some 4#3 ∧
    refusalCode (.toDivisor false false .usEu 0#2 .high 108000001#27) = some 4#3 ∧
    refusalCode (.toDivisor false false .japan 0#2 .low 75999999#27) = some 4#3 ∧
    refusalCode (.toDivisor false false .japan 0#2 .low 91000001#27) = some 4#3 := by decide

/-- All three outcomes: no request, an OK answer, a failed answer of each kind. -/
theorem witness_PassedChecksComplete :
    refusalCode (.nop false 0#32) = none ∧ refusalCode (.upload false 0#32) = none ∧
    refusalCode (.download false 0#32) = none ∧
    refusalCode (.toDivisor false false .usEu 0#2 .high 87500000#27) = none ∧
    (after 0x2000000000#40 s89).lastCode = 0#3 ∧
    (after 0x2000000000#40 { s89 with env := ⟨[.fail], [], 0⟩ }).lastCode = 5#3 ∧
    (after 0x2100000000#40 { s89 with env := ⟨[], [.fail], 0⟩ }).lastCode = 5#3 := by decide

/-- A command and a register read in a state with ERR set, a reset, and a command that leaves ERR = 0. -/
theorem witness_ErrorFlagsStick :
    ∃ t₁ t₂ t₃ t₄ : State, uploadedState.err = true ∧
      HostEvent.command 0#40 ≠ .reset ∧ HostEvent.readReg 9#4 0xFFFFFFFF#32 ≠ .reset ∧
      hostEvent (.command 0#40) uploadedState = .next t₁ ∧
      hostEvent (.readReg 9#4 0xFFFFFFFF#32) uploadedState = .next t₂ ∧
      hostEvent .reset uploadedState = .next t₃ ∧ hostEvent (.command 0#40) s89 = .next t₄ ∧ t₄.err = false :=
  ⟨_, _, _, _, rfl, by decide, by decide, rfl, rfl, rfl, rfl, rfl⟩

/-- A NOP word that is done and one that is refused. -/
theorem witness_NopWritesLastCodeOnly :
    (0x0000000000#40).getLsbD 39 = false ∧ (0x0000000000#40).extractLsb' 32 6 = 0x00#6 ∧
    (0x40FFFFFFFF#40).getLsbD 39 = false ∧ (0x40FFFFFFFF#40).extractLsb' 32 6 = 0x00#6 := by decide

theorem witness_HeldThenUploadIsUnheld :
    ∃ (i j : Instr) (s t u : State), i.isConfig = true ∧ i.hold = true ∧ j.hold = false ∧ i.func = j.func ∧
      i.arg = j.arg ∧ refusalCode i = none ∧ exec i s = .next t ∧ exec (.upload false 0#32) t = .next u :=
  ⟨.setBand true 0#31 .japan, .setBand false 0#31 .japan, s89, _, _, rfl, rfl, rfl, rfl, rfl, by decide, rfl, rfl⟩

/-- An answer of each kind: settled OK, settled FAIL. -/
theorem witness_DownloadCompletes :
    nextReadAnswer s89.env = .ok ⟨0xAA#8, 0xF9#8, 0x80#8, 0xA0#8, 0x00#8⟩ ∧
    nextReadAnswer { s89.env with readAnswers := [.fail] } = .fail := by decide

/-- Each band at both limits, each clock. -/
theorem witness_ToDivisorCompletes :
    InBand .usEu (87500000#27).toNat ∧ InBand .usEu (108000000#27).toNat ∧ InBand .japan (76000000#27).toNat ∧
    InBand .japan (91000000#27).toNat ∧
    RefOf params50k .xtal32k 32768 ∧ RefOf params50k .clk13m 50000 ∧ RefOf params50k .clk6m5 50000 := by
  refine ⟨?_, ?_, ?_, ?_, rfl, rfl, rfl⟩ <;> exact ⟨by decide, by decide⟩

theorem witness_FromDivisorCompletes :
    RefOf params50k .xtal32k 32768 ∧ RefOf params50k .clk13m 50000 ∧ RefOf params50k .clk6m5 50000 :=
  ⟨rfl, rfl, rfl⟩

theorem uploadedFrame_sound : FrameSound params50k ⟨0x2A#8, 0xF9#8, 0xD0#8, 0x10#8, 0x00#8⟩ := by
  refine ⟨by decide, by decide, by decide, .usEu, .high, .xtal32k, 32768, 89900000, by decide, by decide, by decide,
    by decide, rfl, ⟨by decide, by decide⟩, ?_, ?_⟩ <;> simp [numerator]

theorem uploadedState_inv : Inv uploadedState where
  errFirst    := by decide
  lastCode    := by decide
  refusalSeen := fun _ _ => rfl
  address     := by decide
  sound       := by
    intro e he f hf
    simp only [uploadedState, sent, List.mem_singleton] at he
    subst he
    cases hf
    exact uploadedFrame_sound
  lastWrite   := by decide
  divLast     := by decide
  lastRead    := by decide
  status      := fun h => absurd h (by decide)
  result      := fun h => absurd h (by decide)

theorem witness_StepKeepsInvariant : ∃ t, Inv uploadedState ∧ step uploadedState = .next t := ⟨_, uploadedState_inv, rfl⟩

theorem witness_SentFramesAreSound :
    ∃ (t : State) (a : BitVec 7) (f : Frame) (r : WriteAnswer),
      exec (.upload false 0#32) s89 = .next t ∧ t.trace = s89.trace ++ [.write a f r] :=
  ⟨_, _, _, _, rfl, rfl⟩

/-- Each of the three cases: no request, a write request, a read request. -/
theorem witness_TransportOnlyByTransfers :
    (∃ t, exec (.nop false 0#32) s89 = .next t ∧ t.trace = s89.trace) ∧
    (∃ t r, exec (.setPort1 false 0#31 true) s89 = .next t ∧ t.trace = s89.trace ++ [.write 0x60#7 t.wf r]) ∧
    (∃ t r, exec (.download false 0#32) s89 = .next t ∧ t.trace = s89.trace ++ [.read 0x60#7 r]) :=
  ⟨⟨_, rfl, rfl⟩, ⟨_, _, rfl, rfl⟩, ⟨_, _, rfl, rfl⟩⟩

/-- A command for each clause: one that is no configuration command, with and without the clamp's write-back, one that is
held, one that is no DOWNLOAD, one that is no conversion, and states with each valid bit set. -/
theorem witness_RegistersHaveTheirWriters :
    (∃ t, exec (.upload false 0#32) s89 = .next t) ∧ (Instr.upload false 0#32).isConfig = false ∧
    s89.params.clampWriteback = false ∧
    (∃ t, exec (.setPort1 true 0#31 true) uploadedState = .next t) ∧ (Instr.setPort1 true 0#31 true).hold = true ∧
    uploadedState.wfValid = true ∧
    (∃ t, exec (.nop false 0#32) { s89 with statusValid := true, resultValid := true } = .next t) :=
  ⟨⟨_, rfl⟩, rfl, rfl, ⟨_, rfl⟩, rfl, rfl, ⟨_, rfl⟩⟩

/-- Two states that differ in WF and the flags; a command that leaves the write-frame registers alone, one that writes
them and one that writes RESULT. -/
theorem witness_CommandsReadOnlyConfiguration :
    (∃ t₁ t₂, exec (.upload false 0#32) uploadedState = .next t₁ ∧ exec (.upload false 0#32) s89 = .next t₂) ∧
    (∃ t₁ t₂, exec (.fromDivisor false 0#2 0#2 .high 0#13 16383#14) uploadedState = .next t₁ ∧
      exec (.fromDivisor false 0#2 0#2 .high 0#13 16383#14) s89 = .next t₂) ∧
    ∃ t₁ t₂, uploadedState.cfg = s89.cfg ∧ uploadedState.params = s89.params ∧ uploadedState.env = s89.env ∧
      exec (.download false 0#32) uploadedState = .next t₁ ∧ exec (.download false 0#32) s89 = .next t₂ :=
  ⟨⟨_, _, rfl, rfl⟩, ⟨_, _, rfl, rfl⟩, _, _, rfl, rfl, rfl, rfl, rfl⟩

/-- Two states with other configurations and frames sent. -/
theorem witness_DownloadReadsInjectionAndClock :
    ∃ t₁ t₂, uploadedState.cfg.inj = (muted .both).cfg.inj ∧ uploadedState.cfg.clk = (muted .both).cfg.clk ∧
      uploadedState.params = (muted .both).params ∧
      nextReadAnswer uploadedState.env = .ok ⟨0xAA#8, 0xF9#8, 0x80#8, 0xA0#8, 0x00#8⟩ ∧
      nextReadAnswer (muted .both).env = .ok ⟨0xAA#8, 0xF9#8, 0x80#8, 0xA0#8, 0x00#8⟩ ∧
      exec (.download false 0#32) uploadedState = .next t₁ ∧ exec (.download false 0#32) (muted .both) = .next t₂ :=
  ⟨_, _, rfl, rfl, rfl, rfl, rfl, rfl, rfl⟩

theorem witness_RepeatedUploadSendsSameFrame :
    ∃ t u : State, exec (.upload false 0#32) { s89 with env := ⟨[.ok, .ok], [], 0⟩ } = .next t ∧
      exec (.upload false 0#32) t = .next u ∧
      nextWriteAnswer { s89 with env := ⟨[.ok, .ok], [], 0⟩ }.env = nextWriteAnswer t.env :=
  ⟨_, _, rfl, rfl, rfl⟩

theorem witness_TransportFailureKeepsWrites :
    ∃ t₁ t₂ t₃ t₄ : State,
      exec (.upload false 0#32) { s89 with env := ⟨[.ok], [], 0⟩ } = .next t₁ ∧
      exec (.upload false 0#32) { s89 with env := ⟨[.fail], [], 0⟩ } = .next t₂ ∧
      exec (.setBand false 0#31 .japan) { s89 with env := ⟨[.ok], [], 0⟩ } = .next t₃ ∧
      exec (.setBand false 0#31 .japan) { s89 with env := ⟨[.fail], [], 0⟩ } = .next t₄ ∧
      (Instr.setBand false 0#31 .japan).isConfig = true ∧ refusalCode (.setBand false 0#31 .japan) = none :=
  ⟨_, _, _, _, rfl, rfl, rfl, rfl, rfl, by decide⟩

theorem witness_AnswersAreTakenInOrder :
    s89.env.writeAnswers = .ok :: [] ∧ { s89 with env := ⟨[.fail, .ok], [], 0⟩ }.env.writeAnswers = .fail :: [.ok] ∧
    (Instr.setBand false 0#31 .japan).isConfig = true ∧ (Instr.setBand false 0#31 .japan).hold = false ∧
    refusalCode (.setBand false 0#31 .japan) = none ∧ refusalCode (.upload false 0#32) = none ∧
    s89.env.readAnswers = .ok ⟨0xAA#8, 0xF9#8, 0x80#8, 0xA0#8, 0x00#8⟩ :: [] ∧
    ∃ t, exec (.setBand true 0#31 .japan) s89 = .next t ∧ t.trace = s89.trace :=
  ⟨rfl, rfl, rfl, rfl, by decide, by decide, rfl, _, rfl, rfl⟩

/-- Each clause of an unspecified read at the ends of its bits, and reads that use none. -/
theorem witness_RegisterReadFaultsOnlyOnUnspecified :
    s89.wfValid = false ∧ s89.statusValid = false ∧ s89.resultValid = false ∧
    (0x00000001#32).getLsbD 0 = true ∧ (0x80000000#32).getLsbD 31 = true ∧
    (0x00200000#32).getLsbD 21 = true ∧ (0x00100000#32).getLsbD 20 = true ∧ (0x00000080#32).getLsbD 7 = true ∧
    unspecifiedBits s89 3#4 &&& 0x00400000#32 = 0#32 ∧ unspecifiedBits s89 4#4 &&& 0x00200000#32 = 0#32 ∧
    unspecifiedBits s89 7#4 &&& 0x00000100#32 = 0#32 ∧ unspecifiedBits s89 9#4 = 0#32 ∧
    (pending (.readReg 3#4 0x00200000#32)).host = .readReg 3#4 0x00200000#32 :: [] := by decide

/-- Two states that differ in every value that is unspecified after reset, and three steps they take: a command, a
specified read, a faulting read. -/
theorem witness_UnspecifiedValuesReachNothing :
    SameButUnspecified s89
      { s89 with wf := ⟨1#8, 2#8, 3#8, 4#8, 5#8⟩, divLast := 6#14, status := { s89.status with ready := true }, result := 7#32 } ∧
    (∃ t, step (pending (.command 0#40)) = .next t) ∧ (∃ t, step (pending (.readReg 2#4 0#32)) = .next t) ∧
    step (pending (.readReg 2#4 1#32)) = .fault (.unspecifiedRead 2#4) :=
  ⟨⟨rfl, fun h => by simp [s89, s0, State.resetWith] at h, fun h => by simp [s89, s0, State.resetWith] at h,
      fun h => by simp [s89, s0, State.resetWith] at h⟩, ⟨_, rfl⟩, ⟨_, rfl⟩, rfl⟩

/-- The reserved register numbers at both ends. -/
theorem witness_StatusRegistersPlaceFields : 10 ≤ (10#4).toNat ∧ 10 ≤ (15#4).toNat := by decide

theorem witness_InBandDivisorFits14Bits :
    InBand .usEu 87500000 ∧ InBand .usEu 108000000 ∧ InBand .japan 76000000 ∧ InBand .japan 91000000 ∧
    (26423 ≤ 26423 ∧ 26423 ≤ 2 ^ 32 - 1) ∧ 26423 ≤ 2 ^ 32 - 1 := by
  refine ⟨?_, ?_, ?_, ?_, by decide, by decide⟩ <;> exact ⟨by decide, by decide⟩

theorem witness_RoundTripErrorIsBounded : InBand .japan 76000000 ∧ InBand .usEu 108000000 ∧ 26423 ≤ 32768 ∧ 32768 ≤ 2 ^ 32 - 1 := by
  refine ⟨⟨by decide, by decide⟩, ⟨by decide, by decide⟩, by decide, by decide⟩

theorem witness_ConversionsAreMonotone : 0 < 32768 ∧ 76000000 ≤ 108000000 ∧ 0 ≤ 16383 := by decide

/-- The ends of the positions: the whole byte, a field in the middle with a bit on each side of it, and each end bit. -/
theorem witness_BitFieldsDoNotSpill :
    (0 ≤ 7 ∧ 7 ≤ 7) ∧ (5 ≤ 6 ∧ 6 ≤ 7) ∧ (4 < 5 ∨ 6 < 4) ∧ (7 < 5 ∨ 6 < 7) ∧ 0 ≤ 7 := by decide

theorem witness_UnpackUndoesPack : (0 : Int) ≤ 0 ∧ (0 : Int) ≤ 16383 ∧ (16383 : Int) ≤ 16383 := by decide

theorem witness_EncodeIsSetFieldChain : 0 < 16384 ∧ 16383 < 16384 := by decide

/-- Both sides of the layout's equivalence are met by the frame of S89. -/
theorem witness_EncodeFollowsLayout : encodeFrame params50k s89.cfg 11001 = ⟨0x2A#8, 0xF9#8, 0xD0#8, 0x10#8, 0x00#8⟩ := by
  decide

/-- Two frames that differ in every bit the decoder ignores. -/
theorem witness_DecodeIgnoresUnusedBits :
    (0xFF#8).getLsbD 7 = (0x80#8).getLsbD 7 ∧ (0xAF#8).extractLsb' 4 4 = (0xA0#8).extractLsb' 4 4 := by decide

end Sys2Proof.Tests
end

section
/-! SUPPORT. Which command words select no row of the command map (30_encoding.md R85), and what the block does with
them. -/

namespace Sys2Proof

/-- FUNC selects no row of the map exactly in the two gaps of R85. -/
theorem decodeFunc_eq_none_iff (h : Bool) (func : BitVec 6) (a : BitVec 32) :
    decodeFunc h func a = none ↔ (0x16 ≤ func.toNat ∧ func.toNat ≤ 0x1F) ∨ 0x24 ≤ func.toNat := by
  have hlt : func.toNat < 64 := func.isLt
  unfold decodeFunc
  split
  case h_27 => -- the default row: `func` differs from each of the 26 codes
    simp only [imp_false, true_iff] at *
    omega
  all_goals -- an assigned code lies outside both gaps
    simp only [reduceCtorEq, false_iff]
    omega

/-- A word is rejected exactly when bit 39 is set or its FUNC selects no row. -/
theorem decodeWord_eq_reject_iff (w : CommandWord) :
    (∃ r, decodeWord w = .reject r) ↔
      wordR w = true ∨ decodeFunc (wordH w) (wordFunc w) (wordArg w) = none := by
  unfold decodeWord
  cases wordR w with
  | true => simp
  | false => cases decodeFunc (wordH w) (wordFunc w) (wordArg w) <;> simp

/-- The rejected words are those R85 lists. -/
theorem decodeWord_eq_reject_iff_illegal (w : CommandWord) :
    (∃ r, decodeWord w = .reject r) ↔
      w.getLsbD 39 = true ∨
        (0x16 ≤ (w.extractLsb' 32 6).toNat ∧ (w.extractLsb' 32 6).toNat ≤ 0x1F) ∨ 0x24 ≤ (w.extractLsb' 32 6).toNat := by
  rw [decodeWord_eq_reject_iff, decodeFunc_eq_none_iff, wordR, wordFunc]

end Sys2Proof

namespace Sys2Proof.Machine

/-- Settles O3: a word either decodes and runs or is rejected and refused, and the rejected words are those R85 lists. -/
theorem illegalOpcodesRefused : Obligations.IllegalOpcodesRefused := by
  intro s w
  rw [← decodeWord_eq_reject_iff_illegal]
  obtain ⟨i, hdec, hrun⟩ | ⟨r, hdec, hrun⟩ := runCommand_cases w s
  · exact ⟨fun ⟨r, hrej⟩ => by simp [hdec] at hrej, fun _ => ⟨i, hdec, hrun⟩⟩
  · exact ⟨fun _ => hrun, fun hnot => absurd ⟨r, hdec⟩ hnot⟩

end Sys2Proof.Machine
end

section
/-! SUPPORT. The converter as the claims of 40_frequency.md speak of it: monotonicity, the step between the two injection
sides, the range at 32 768 Hz, and the error of a round trip. -/

namespace Sys2Proof.Machine

/-- Adding `c` to the dividend adds `fdiv c b` to the quotient, or one more for the carry of the remainders. -/
theorem fdiv_add_sub_cases (a c : Int) {b : Int} (hb : 0 < b) :
    fdiv (a + c) b - fdiv a b = fdiv c b ∨ fdiv (a + c) b - fdiv a b = fdiv c b + 1 := by
  obtain ⟨hsumLo, hsumHi⟩ := fdiv_spec (a + c) b hb
  obtain ⟨haLo, haHi⟩ := fdiv_spec a b hb
  obtain ⟨hcLo, hcHi⟩ := fdiv_spec c b hb
  have hlo : fdiv a b + fdiv c b < fdiv (a + c) b + 1 := by
    refine lt_of_mul_lt_mul_right ?_ hb.le
    linarith
  have hhi : fdiv (a + c) b < fdiv a b + fdiv c b + 2 := by
    refine lt_of_mul_lt_mul_right ?_ hb.le
    linarith
  omega

/-- `to_divisor` is non-decreasing in the frequency (40_frequency.md R128). -/
theorem toDivisor_mono (inj : Injection) {ref f g : Nat} (hr : 0 < ref) (h : f ≤ g) :
    toDivisor inj ref f ≤ toDivisor inj ref g :=
  fdiv_mono (by exact_mod_cast hr) (by omega)

/-- `from_divisor` is non-decreasing in the divisor (40_frequency.md R128). -/
theorem fromDivisor_mono (inj : Injection) (ref : Nat) {d e : Nat} (h : d ≤ e) :
    fromDivisor inj ref d ≤ fromDivisor inj ref e := by
  refine rdivAway_mono ?_
  gcongr

/-- The divisors of the two injection sides lie 2 * IF_HZ apart, so 1 800 000 / ref rounded down or one more
(40_frequency.md R128). -/
theorem toDivisor_high_sub_low (ref f : Nat) (hr : 0 < ref) :
    toDivisor .high ref f - toDivisor .low ref f = fdiv 1800000 ref ∨
      toDivisor .high ref f - toDivisor .low ref f = fdiv 1800000 ref + 1 := by
  have hnum : 4 * ((f : Int) + ifOffset .high) = 4 * ((f : Int) + ifOffset .low) + 1800000 := by
    simp only [ifOffset]
    ring
  unfold toDivisor
  rw [hnum]
  exact fdiv_add_sub_cases _ _ (by exact_mod_cast hr)

/-- The range of the in-band divisors for the 32 768 Hz crystal (40_frequency.md R122). -/
theorem toDivisor_bounds_xtal32k (inj : Injection) {b : Band} {f : Nat} (h : InBand b f) :
    9249 ≤ toDivisor inj 32768 f ∧ toDivisor inj 32768 f ≤ 13211 := by
  obtain ⟨hle, hlt⟩ := toDivisor_spec inj (ref := 32768) f (by decide)
  obtain ⟨hlo, hhi⟩ := numerator_bounds inj h
  push_cast at hle hlt
  omega

/-- The 14 bits of a frame hold the divisor modulo 16384 (41_codec.md R141). -/
theorem divisorBits_toNat_emod (d : Int) : ((divisorBits d).toNat : Int) = d % 16384 := by
  unfold divisorBits
  rw [BitVec.toNat_ofInt]
  omega

/-- With 32 768 Hz no divisor is a tie: modulo 128 num4 is 32 or 96, where a tie would leave 64 (40_frequency.md
R123). -/
theorem fromDivisor_xtal32k_no_tie (inj : Injection) (d : Nat) :
    2 * |400000 * fromDivisor inj 32768 d - numerator4 inj 32768 d| < 400000 := by
  have hle := (fromDivisor_spec inj 32768 d).1
  refine lt_of_le_of_ne hle fun htie => ?_
  have habs := abs_cases (400000 * fromDivisor inj 32768 d - numerator4 inj 32768 d)
  cases inj <;> simp only [numerator4] at habs htie <;> omega

/-- Back from a divisor, num4 is four times the frequency less the remainder of the division (40_frequency.md R127). -/
theorem numerator4_of_isDivisorOf {inj : Injection} {ref f d : Nat} (h : IsDivisorOf inj ref f d) :
    4 * (f : Int) - ref < numerator4 inj ref d ∧ numerator4 inj ref d ≤ 4 * f := by
  obtain ⟨hle, hlt⟩ := h
  rw [numerator_eq] at hle hlt
  rw [numerator4_eq]
  constructor <;> linarith

/-- The frequency of a divisor of `f` is less than 50 000 + ref / 4 Hz from `f`: the rounding to 100 000 Hz adds at most
50 000 to the remainder (40_frequency.md R127). -/
theorem fromDivisor_error {inj : Injection} {ref f d : Nat} (h : IsDivisorOf inj ref f d) :
    4 * |100000 * fromDivisor inj ref d - (f : Int)| < 200000 + ref := by
  obtain ⟨hlo, hhi⟩ := numerator4_of_isDivisorOf h
  have hround := (fromDivisor_spec inj ref d).1
  have hnum := abs_cases (400000 * fromDivisor inj ref d - numerator4 inj ref d)
  have hf := abs_cases (100000 * fromDivisor inj ref d - (f : Int))
  omega

end Sys2Proof.Machine
end

section
/-! The claims about the converter (40_frequency.md R120 to R128). -/

namespace Sys2Proof.Machine

/-- Settles O38: the clamp's relation for every frequency, and its two corners. -/
theorem bandClampStaysInBand : Obligations.BandClampStaysInBand :=
  ⟨bandClamp_clampedTo, by decide, by decide⟩

/-- Settles O39: the bounds of the numerator bound the divisor, and a frame carries its 14 low bits. -/
theorem inBandDivisorFits14Bits : Obligations.InBandDivisorFits14Bits := by
  refine ⟨fun b inj f hin => ⟨fun ref hlo _ => toDivisor_bounds inj hin hlo, toDivisor_bounds_xtal32k inj hin⟩,
    by decide, by decide, fun p c d => ?_⟩
  rw [encodeFrame_divisor]
  exact divisorBits_toNat_emod d

/-- Settles O40: the rounding rule for every reference, no tie at 32 768 Hz, and the four corners. -/
theorem fromDivisorRoundsToNearest : Obligations.FromDivisorRoundsToNearest :=
  ⟨fun inj ref d => ⟨fromDivisor_spec inj ref d, fromDivisor_xtal32k_no_tie inj d⟩,
    by decide, by decide, by decide, by decide⟩

/-- Settles O41: an in-band divisor is a natural number, so the error of a natural divisor applies to it. -/
theorem roundTripErrorIsBounded : Obligations.RoundTripErrorIsBounded := by
  intro b inj ref f hin hlo _
  have hnat : ((toDivisor inj ref f).toNat : Int) = toDivisor inj ref f :=
    Int.toNat_of_nonneg (toDivisor_bounds inj hin hlo).1
  refine fromDivisor_error ?_
  rw [hnat]
  exact toDivisor_spec inj f (by omega)

/-- Settles O42: each direction is monotone, and the two sides' divisors differ by the quotient of 1 800 000. -/
theorem conversionsAreMonotone : Obligations.ConversionsAreMonotone :=
  fun inj ref hr =>
    ⟨fun _ _ h => toDivisor_mono inj hr h, fun _ _ h => fromDivisor_mono inj ref h,
      fun f => toDivisor_high_sub_low ref f hr⟩

end Sys2Proof.Machine
end

section
/-! SUPPORT. The codec as the claims of 41_codec.md speak of it: the two top bits of a packed divisor, the layout as a
full description of a frame, the frames that commands send, and the bits the decoder does not read. -/

namespace Sys2Proof.Machine

/-! ## Packing (R141) -/

/-- `unpack` gives back the packed bits and drops the two top bits of the high byte (41_codec.md R141). -/
theorem unpack_packHi_packLo (d : Int) (top : BitVec 2) : unpack (top ++ packHi d) (packLo d) = divisorBits d := by
  have htop : (top ++ packHi d).extractLsb' 0 6 = packHi d := by
    rw [BitVec.extractLsb'_append_eq_of_add_le (by decide), BitVec.extractLsb'_eq_self]
  rw [unpack, htop, packHi_packLo]

/-! ## The layout of the write frame (30_encoding.md R90) -/

/-- Two bytes with the same field at `lo`, `n` bits wide, have the same bits there. -/
theorem getLsbD_eq_of_extractLsb'_eq {x y : Byte} {lo n : Nat} (h : x.extractLsb' lo n = y.extractLsb' lo n) (k : Nat)
    (hk : k < n) : x.getLsbD (lo + k) = y.getLsbD (lo + k) := by
  simpa [BitVec.getLsbD_extractLsb', hk] using congrArg (BitVec.getLsbD · k) h

/-- The byte layout of b0 and b4: two single bits above a field of six. -/
theorem byte_eq_of_low_six {x y : Byte} (h₇ : x.getLsbD 7 = y.getLsbD 7) (h₆ : x.getLsbD 6 = y.getLsbD 6)
    (hlow : x.extractLsb' 0 6 = y.extractLsb' 0 6) : x = y := by
  refine BitVec.eq_of_getLsbD_eq fun k hk => ?_
  obtain hlt | rfl | rfl : k < 6 ∨ k = 6 ∨ k = 7 := by omega
  · simpa using getLsbD_eq_of_extractLsb'_eq hlow k hlt
  · exact h₆
  · exact h₇

/-- Two frames that carry the same configuration and divisor are equal: the layout fixes all 40 bits. -/
theorem FrameCarries.unique {p : Params} {c : Cfg} {d : BitVec 14} {f g : Frame} (hf : FrameCarries p c d f)
    (hg : FrameCarries p c d g) : f = g := by
  have h₀ : f.b0 = g.b0 :=
    byte_eq_of_low_six (hf.mute.trans hg.mute.symm) (hf.sm.trans hg.sm.symm) (hf.pllHi.trans hg.pllHi.symm)
  have h₁ : f.b1 = g.b1 := hf.pllLo.trans hg.pllLo.symm
  have h₂ : f.b2 = g.b2 := by
    have hssl := getLsbD_eq_of_extractLsb'_eq (hf.ssl.trans hg.ssl.symm)
    refine BitVec.eq_of_getLsbD_eq fun k hk => ?_
    interval_cases k
    · exact hf.swp1.trans hg.swp1.symm
    · exact hf.ml.trans hg.ml.symm
    · exact hf.mr.trans hg.mr.symm
    · exact hf.ms.trans hg.ms.symm
    · exact hf.hlsi.trans hg.hlsi.symm
    · exact hssl 0 (by decide)
    · exact hssl 1 (by decide)
    · exact hf.sud.trans hg.sud.symm
  have h₃ : f.b3 = g.b3 := by
    refine BitVec.eq_of_getLsbD_eq fun k hk => ?_
    interval_cases k
    · exact hf.si.trans hg.si.symm
    · exact hf.snc.trans hg.snc.symm
    · exact hf.hcc.trans hg.hcc.symm
    · exact hf.smute.trans hg.smute.symm
    · exact hf.xtal.trans hg.xtal.symm
    · exact hf.bl.trans hg.bl.symm
    · exact hf.stby.trans hg.stby.symm
    · exact hf.swp2.trans hg.swp2.symm
  have h₄ : f.b4 = g.b4 :=
    byte_eq_of_low_six (hf.pllref.trans hg.pllref.symm) (hf.dtc.trans hg.dtc.symm) (hf.zero.trans hg.zero.symm)
  cases f
  cases g
  rw [Frame.mk.injEq]
  exact ⟨h₀, h₁, h₂, h₃, h₄⟩

/-- The divisor of a frame that follows the layout, put together from its two fields. -/
theorem FrameCarries.divisor {p : Params} {c : Cfg} {d : BitVec 14} {f : Frame} (h : FrameCarries p c d f) :
    f.b0.extractLsb' 0 6 ++ f.b1 = d := by
  rw [h.pllHi, h.pllLo, BitVec.extractLsb'_append_extractLsb'_eq_extractLsb' (show 8 = 0 + 8 from rfl)]
  exact BitVec.extractLsb'_eq_self

/-! ## The frames that commands send (41_codec.md R145) -/

/-- A frame that follows the layout for the divisor of an in-band frequency has the integrity of R145: the configuration
names the band, the injection side and the clock that the frame carries. -/
theorem FrameCarries.sound {p : Params} {c : Cfg} {d : BitVec 14} {f : Frame} {ref fc : Nat} (h : FrameCarries p c d f)
    (href : RefOf p c.clk ref) (hin : InBand c.band fc) (hdiv : IsDivisorOf c.inj ref fc d.toNat) : FrameSound p f := by
  refine ⟨h.zero, ?_, ?_, c.band, c.inj, c.clk, ref, fc, h.bl, h.hlsi, h.xtal, h.pllref, href, hin, ?_⟩
  · rw [h.xtal, h.pllref]
    cases c.clk <;> decide
  · rw [h.ssl]
    cases c.searchThr <;> decide
  · rwa [h.divisor]

/-- The upload sequence sends one frame, which WF then holds, and the frame is sound. -/
theorem Uploaded.sends_sound {s t : State} (h : Uploaded s t) :
    t.trace = s.trace ++ [.write 0x60#7 t.wf (nextWriteAnswer s.env)] ∧ FrameSound s.params t.wf := by
  obtain ⟨ref, fc, d, f, href, ⟨hin, -⟩, hdiv, hcarries, rfl⟩ := h
  exact ⟨rfl, hcarries.sound href hin hdiv⟩

/-- A download adds its read request to the trace, whatever the answer is. -/
theorem downloadSequence_trace (s : State) :
    (downloadSequence s).trace = s.trace ++ [.read 0x60#7 (nextReadAnswer s.env)] := by
  cases h : nextReadAnswer s.env with
  | ok f => rw [downloadSequence_ok h]
  | fail => rw [downloadSequence_fail h]

/-- What a command does to the trace: nothing, an upload of some configuration, or a read request. -/
theorem CommandEffect.trace_cases {i : Instr} {s t : State} (h : CommandEffect i s t) :
    t.trace = s.trace ∨ (∃ c, Uploaded { s with cfg := c } t) ∨
      t.trace = s.trace ++ [.read 0x60#7 (nextReadAnswer s.env)] := by
  cases h with
  | refusal c _ h => exact .inl (h ▸ rfl)
  | nop _ h => exact .inl (h ▸ rfl)
  | config c _ h =>
    unfold Configured at h
    split at h
    · exact .inl (h ▸ rfl)
    · exact .inr (.inl ⟨c, h⟩)
  | upload _ h => exact .inr (.inl ⟨s.cfg, h⟩)
  | download _ h => exact .inr (.inr (h ▸ downloadSequence_trace s))
  | toDivisor _ r _ h => exact .inl (h ▸ rfl)
  | fromDivisor _ r _ h => exact .inl (h ▸ rfl)

/-! ## The read frame (41_codec.md R143) -/

/-- The decoder reads b0, b1, bit 7 of b2 and the high half of b3; the rest of a frame reaches the raw copy alone. -/
theorem decodeFrame_congr {f g : Frame} (inj : Injection) (ref : Nat) (h₀ : f.b0 = g.b0) (h₁ : f.b1 = g.b1)
    (h₂ : f.b2.getLsbD 7 = g.b2.getLsbD 7) (h₃ : f.b3.extractLsb' 4 4 = g.b3.extractLsb' 4 4) :
    decodeFrame g inj ref = { decodeFrame f inj ref with raw := g } := by
  simp only [decodeFrame, h₀, h₁, h₂, h₃]

end Sys2Proof.Machine
end

section
/-! The claims about the codec (41_codec.md R141 to R145). -/

namespace Sys2Proof.Machine

/-- Settles O24: a command that adds a write request has uploaded some configuration, and an upload sends a sound
frame. -/
theorem sentFramesAreSound : Obligations.SentFramesAreSound := by
  intro i s t a f r hexec htrace
  obtain hkeep | ⟨c, hup⟩ | hread := (exec_next hexec).trace_cases
  · simp [hkeep] at htrace
  · obtain ⟨hsent, hsound⟩ := hup.sends_sound
    obtain rfl : t.wf = f := by
      rw [hsent] at htrace
      simp only [List.append_cancel_left_eq, List.cons.injEq, TraceEntry.write.injEq] at htrace
      exact htrace.1.2.1
    exact hsound
  · simp [hread] at htrace

/-- Settles O44: the packed bits come back, and they are the divisor modulo 16384. -/
theorem unpackUndoesPack : Obligations.UnpackUndoesPack := by
  intro d top
  rw [unpack_packHi_packLo]
  exact ⟨divisorBits_toNat_emod d, divisorBits_toNat⟩

/-- Settles O45: the encoder's frame follows the layout, and no other frame does. -/
theorem encodeFollowsLayout : Obligations.EncodeFollowsLayout := by
  intro p c d f
  constructor
  · exact fun h => h.unique (encodeFrame_carries p c d)
  · rintro rfl
    exact encodeFrame_carries p c d

/-- Settles O47: the decoder's fields are those of the layout, and it reads no other bit. -/
theorem decodeIgnoresUnusedBits : Obligations.DecodeIgnoresUnusedBits :=
  fun p inj c f _ => ⟨decodeFrame_statusOf p inj c f, decodeFrame_congr inj (refHz p c)⟩

end Sys2Proof.Machine
end

section
/-! SUPPORT. The command step as the claims of 43_control.md speak of it: a word whose FUNC selects a row decodes to that
row, and NOP either clears LAST_CODE or is refused. -/

namespace Sys2Proof

/-- A word with bit 39 = 0 decodes to the command of the row that its FUNC selects (30_encoding.md R84). -/
theorem decodeWord_of_decodeFunc {w : CommandWord} {i : Instr} (hr : wordR w = false)
    (hrow : decodeFunc (wordH w) (wordFunc w) (wordArg w) = some i) : decodeWord w = .command i := by
  unfold decodeWord
  rw [hr, hrow]
  rfl

/-- FUNC 0x00 selects the row of NOP (30_encoding.md R84). -/
theorem decodeFunc_zero (h : Bool) (a : BitVec 32) : decodeFunc h 0x00#6 a = some (.nop h a) := rfl

end Sys2Proof

namespace Sys2Proof.Machine

/-- NOP with H = 0 and ARG = 0 writes 0 to LAST_CODE and nothing else (43_control.md R190). -/
theorem exec_nop_done (s : State) : exec (.nop false 0#32) s = .next { s with lastCode := 0#3 } := rfl

/-- NOP with its hold bit or an argument bit set is refused with code 2 (43_control.md R190). -/
theorem exec_nop_refused {h : Bool} {arg : BitVec 32} (hbits : ¬(h = false ∧ arg = 0#32)) (s : State) :
    exec (.nop h arg) s = .next (refused 2#3 s) := by
  have hchecks : ¬(notHeld h && formatZ arg) = true := by simpa [notHeld, formatZ] using hbits
  exact if_neg hchecks

end Sys2Proof.Machine
end

section
/-! The claims about the command step and NOP (43_control.md R190 and R192). -/

namespace Sys2Proof.Machine

/-- Settles O10: a word that decodes runs a command, which gives a next state, and any other word is refused. -/
theorem everyWordCompletes : Obligations.EveryWordCompletes := by
  intro s w
  obtain ⟨i, -, hrun⟩ | ⟨_, -, hrun⟩ := runCommand_cases w s
  · obtain ⟨t, hexec, -⟩ := exec_effect i s
    exact ⟨t, hrun.trans hexec⟩
  · exact ⟨_, hrun⟩

/-- Settles O11: FUNC 0x00 selects NOP, and NOP is done or refused as its hold and argument bits say. -/
theorem nopWritesLastCodeOnly : Obligations.NopWritesLastCodeOnly := by
  refine ⟨fun w hr hfunc => decodeWord_of_decodeFunc hr ?_, fun h arg s => ?_⟩
  · rw [show wordFunc w = 0x00#6 from hfunc]
    exact decodeFunc_zero (wordH w) (wordArg w)
  · split
    case isTrue hbits =>
      obtain ⟨rfl, rfl⟩ := hbits
      exact exec_nop_done s
    case isFalse hbits => exact exec_nop_refused hbits s

end Sys2Proof.Machine
end

section
/-! SUPPORT. The checks of 60_exceptions.md R202, one after the other, and what happens to ERR and ERR_FIRST when a
command or a host event has run. -/

namespace Sys2Proof

/-- The command fails the first check: its hold bit is set where it must not be, or a reserved bit is set (30_encoding.md
R86). -/
def Instr.failsReserved (i : Instr) : Bool := (i.hold && !i.isConfig) || !i.reservedZero

/-- The first check as the shared operation of the configuration commands makes it: their hold bit is free
(30_encoding.md R83). -/
theorem Instr.reservedZero_of_isConfig {i : Instr} (h : i.isConfig = true) : i.reservedZero = !i.failsReserved := by
  simp [Instr.failsReserved, h]

/-- The first check as the arms of the other commands make it. -/
theorem Instr.notHeld_reservedZero_of_not_isConfig {i : Instr} (h : i.isConfig = false) :
    (!i.hold && i.reservedZero) = !i.failsReserved := by
  simp [Instr.failsReserved, h]

end Sys2Proof

namespace Sys2Proof.Machine

/-! ## The checks in their order (60_exceptions.md R202) -/

/-- A refused command fails the reserved bits, or passes them and has an illegal value, or passes both and is a
TO_DIVISOR out of its band; the code says which. -/
theorem refusalCode_cases {i : Instr} {c : BitVec 3} (h : refusalCode i = some c) :
    (i.failsReserved = true ∧ c = 2#3) ∨
    (i.failsReserved = false ∧ i.valuesLegal = false ∧ c = 3#3) ∨
    (i.failsReserved = false ∧ i.valuesLegal = true ∧ c = 4#3 ∧
      ∃ hold rsv bd v inj f, i = .toDivisor hold rsv bd v inj f ∧ ¬InBand bd f.toNat) := by
  unfold refusalCode at h
  split at h
  case isTrue hrsv => exact .inl ⟨hrsv, (Option.some.inj h).symm⟩
  case isFalse hrsv =>
    have hrsv : i.failsReserved = false := Bool.eq_false_of_not_eq_true hrsv
    split at h
    case isTrue hval => exact .inr (.inl ⟨hrsv, by simpa using hval, (Option.some.inj h).symm⟩)
    case isFalse hval =>
      refine .inr (.inr ⟨hrsv, by simpa using hval, ?_⟩)
      split at h
      case h_3 => cases h -- no other command has a range
      all_goals -- TO_DIVISOR, in the one band and in the other
        split at h
        case isTrue => cases h
        case isFalse hout => exact ⟨(Option.some.inj h).symm, _, _, _, _, _, _, rfl, by simpa [InBand] using hout⟩

/-! ## The commands after a failed check (60_exceptions.md R203) -/

/-- A configuration command is the shared operation with the command's own checks: no configuration to write is an
illegal value. -/
theorem exec_config {i : Instr} (hi : i.isConfig = true) (s : State) :
    ∃ c, exec i s = .next (configCommand i.hold i.reservedZero c s) ∧ (c = none ↔ i.valuesLegal = false) := by
  cases i with
  | nop | upload | download | toDivisor | fromDivisor => cases hi
  | setClock h rsv v =>
    refine ⟨_, rfl, ?_⟩
    rw [Option.map_eq_none_iff, Clock.ofCode?_eq_none]
    simp [Instr.valuesLegal]
  | setSearchThreshold h rsv v =>
    refine ⟨_, rfl, ?_⟩
    rw [Option.map_eq_none_iff, SearchThr.ofCode?_eq_none]
    simp [Instr.valuesLegal]
  | _ => exact ⟨some _, rfl, by simp [Instr.valuesLegal]⟩

/-- The first check: a bad hold bit or a reserved bit is refused with code 2. -/
theorem exec_of_failsReserved {i : Instr} (h : i.failsReserved = true) (s : State) :
    exec i s = .next (refused 2#3 s) := by
  cases hi : i.isConfig with
  | true =>
    obtain ⟨c, hexec, -⟩ := exec_config hi s
    have hz : i.reservedZero = false := by simp [Instr.reservedZero_of_isConfig hi, h]
    rw [hexec, hz]
    rfl
  | false =>
    have hfail : ¬(!i.hold && i.reservedZero) = true := by
      simp [Instr.notHeld_reservedZero_of_not_isConfig hi, h]
    cases i with
    | nop | upload | download | toDivisor | fromDivisor => exact if_neg hfail
    | _ => cases hi

/-- The second check: an illegal value in a command that passes the first is refused with code 3. -/
theorem exec_of_illegalValue {i : Instr} (h : i.failsReserved = false) (hval : i.valuesLegal = false) (s : State) :
    exec i s = .next (refused 3#3 s) := by
  cases hi : i.isConfig with
  | true =>
    obtain ⟨c, hexec, hc⟩ := exec_config hi s
    have hz : i.reservedZero = true := by simp [Instr.reservedZero_of_isConfig hi, h]
    rw [hexec, hz, hc.mpr hval]
    rfl
  | false =>
    have hpass : (!i.hold && i.reservedZero) = true := by
      simp [Instr.notHeld_reservedZero_of_not_isConfig hi, h]
    cases i with
    | toDivisor _ _ _ v | fromDivisor _ _ v =>
      have hclk : Clock.ofCode? v = none := by simpa [Instr.valuesLegal, Clock.ofCode?_eq_none] using hval
      refine (if_pos hpass).trans ?_
      rw [hclk]
      rfl
    | nop | upload | download => cases hval
    | _ => cases hi

/-- The third check: a TO_DIVISOR that passes the other two and is out of its band is refused with code 4. -/
theorem exec_of_outOfBand {hold rsv : Bool} {bd : Band} {v : BitVec 2} {inj : Injection} {f : BitVec 27}
    (h : (Instr.toDivisor hold rsv bd v inj f).failsReserved = false)
    (hval : (Instr.toDivisor hold rsv bd v inj f).valuesLegal = true) (hout : ¬InBand bd f.toNat) (s : State) :
    exec (.toDivisor hold rsv bd v inj f) s = .next (refused 4#3 s) := by
  have hpass := Instr.notHeld_reservedZero_of_not_isConfig (i := .toDivisor hold rsv bd v inj f) rfl
  rw [h, Bool.not_false] at hpass
  have hrange : f.toNat < bandLo bd ∨ bandHi bd < f.toNat := by
    rw [inBand_iff] at hout
    omega
  cases hclk : Clock.ofCode? v with
  | none => simp [Instr.valuesLegal, (Clock.ofCode?_eq_none v).mp hclk] at hval
  | some clk =>
    refine (if_pos hpass).trans ?_
    rw [hclk]
    exact if_pos hrange

/-! ## The error flags (60_exceptions.md R204) -/

/-- An upload leaves ERR and ERR_FIRST alone, whatever the environment answers. -/
theorem Uploaded.keeps_err {s t : State} (h : Uploaded s t) : t.err = s.err ∧ t.errFirst = s.errFirst := by
  obtain ⟨ref, fc, d, f, -, -, -, -, rfl⟩ := h
  exact ⟨rfl, rfl⟩

/-- A configuration command that is done leaves ERR and ERR_FIRST alone. -/
theorem Configured.keeps_err {h : Bool} {c : Cfg} {s t : State} (hc : Configured h c s t) :
    t.err = s.err ∧ t.errFirst = s.errFirst := by
  cases h with
  | true =>
    obtain rfl : t = { s with cfg := c, lastCode := 0#3 } := hc
    exact ⟨rfl, rfl⟩
  | false => exact Uploaded.keeps_err (s := { s with cfg := c }) hc

/-- A download leaves ERR and ERR_FIRST alone, whatever the environment answers. -/
theorem downloadSequence_keeps_err (s : State) :
    (downloadSequence s).err = s.err ∧ (downloadSequence s).errFirst = s.errFirst := by
  cases h : nextReadAnswer s.env with
  | ok f => rw [downloadSequence_ok h]; exact ⟨rfl, rfl⟩
  | fail => rw [downloadSequence_fail h]; exact ⟨rfl, rfl⟩

/-- Only a refusal can write ERR or ERR_FIRST. -/
theorem CommandEffect.err_cases {i : Instr} {s t : State} (h : CommandEffect i s t) :
    (∃ c, t = refused c s) ∨ (t.err = s.err ∧ t.errFirst = s.errFirst) := by
  cases h with
  | refusal c _ h => exact .inl ⟨c, h⟩
  | nop _ h => subst h; exact .inr ⟨rfl, rfl⟩
  | config c _ h => exact .inr h.keeps_err
  | upload _ h => exact .inr h.keeps_err
  | download _ h => subst h; exact .inr (downloadSequence_keeps_err s)
  | toDivisor _ r _ h => subst h; exact .inr ⟨rfl, rfl⟩
  | fromDivisor _ r _ h => subst h; exact .inr ⟨rfl, rfl⟩

/-- A refusal while ERR is set changes neither flag. -/
theorem refused_of_err {s : State} (h : s.err = true) (c : BitVec 3) :
    (refused c s).err = true ∧ (refused c s).errFirst = s.errFirst :=
  ⟨rfl, if_pos h⟩

/-- A command word either is refused or leaves ERR and ERR_FIRST alone, so both stick. -/
theorem runCommand_err_sticks {w : CommandWord} {s t : State} (h : runCommand w s = .next t) (herr : s.err = true) :
    t.err = true ∧ t.errFirst = s.errFirst := by
  obtain ⟨i, -, hrun⟩ | ⟨r, -, hrun⟩ := runCommand_cases w s
  · obtain ⟨c, rfl⟩ | ⟨he, hf⟩ := (exec_next (hrun.symm.trans h)).err_cases
    · exact refused_of_err herr c
    · exact ⟨he.trans herr, hf⟩
  · obtain rfl : refused 1#3 s = t := Host.Outcome.next.inj (hrun.symm.trans h)
    exact refused_of_err herr 1#3

/-- A host read that is answered adds its reply and changes nothing of the block. -/
theorem hostRead_next {n : BitVec 4} {mask : Word} {s t : State} (h : hostRead n mask s = .next t) :
    t = { s with replies := s.replies ++ [⟨n, mask, regWord s n &&& mask⟩] } := by
  unfold hostRead at h
  split at h
  · exact (Host.Outcome.next.inj h).symm
  · cases h

end Sys2Proof.Machine
end

section
/-! The claims about refusals and the error flags (60_exceptions.md R203 and R204). -/

namespace Sys2Proof.Machine

/-- Settles O7: the code names the first check that fails, and each failed check refuses with its code. -/
theorem failedCheckRefusesPrecisely : Obligations.FailedCheckRefusesPrecisely := by
  refine ⟨fun w s r hrej => ?_, fun i s c hcode => ?_⟩
  · obtain ⟨i, hdec, -⟩ | ⟨_, -, hrun⟩ := runCommand_cases w s
    · simp [hrej] at hdec
    · exact hrun
  · obtain ⟨hrsv, rfl⟩ | ⟨hrsv, hval, rfl⟩ | ⟨hrsv, hval, rfl, _, _, _, _, _, _, rfl, hout⟩ :=
      refusalCode_cases hcode
    · exact exec_of_failsReserved hrsv s
    · exact exec_of_illegalValue hrsv hval s
    · exact exec_of_outOfBand hrsv hval hout s

/-- A refused command leaves ERR set, so a command word after which ERR is 0 selects a row and passes every check. -/
theorem refusalCode_eq_none_of_not_err {w : CommandWord} {s t : State} (h : runCommand w s = .next t)
    (herr : t.err = false) : ∃ i, decodeWord w = .command i ∧ refusalCode i = none := by
  have hnot : ∀ c, runCommand w s ≠ .next (refused c s) := by
    rintro c hc
    obtain rfl : t = refused c s := Host.Outcome.next.inj (h.symm.trans hc)
    cases herr
  obtain ⟨i, hdec, hrun⟩ | ⟨r, -, hrun⟩ := runCommand_cases w s
  · refine ⟨i, hdec, Option.eq_none_iff_forall_ne_some.mpr fun c hcode => hnot c ?_⟩
    exact hrun.trans (failedCheckRefusesPrecisely.2 i s c hcode)
  · exact absurd hrun (hnot 1#3)

/-- Settles O9: of the three events reset alone clears the flags, and a command word that is refused sets ERR. -/
theorem errorFlagsStick : Obligations.ErrorFlagsStick := by
  intro s t e hevent
  cases e with
  | reset =>
    obtain rfl : applyReset s = t := Host.Outcome.next.inj hevent
    exact ⟨fun hne => absurd rfl hne, fun _ => ⟨rfl, rfl⟩, nofun⟩
  | command w =>
    refine ⟨fun _ herr => runCommand_err_sticks hevent herr, nofun, ?_⟩
    rintro _ ⟨⟩ herr
    exact refusalCode_eq_none_of_not_err hevent herr
  | readReg n mask =>
    obtain rfl := hostRead_next hevent
    exact ⟨fun _ herr => ⟨herr, rfl⟩, nofun, nofun⟩

end Sys2Proof.Machine
end

section
/-! SUPPORT. The decoder and the encoder as inverses of each other: the command map selects a command's own row from the
command's function code, and the row it selects from a word has that word's fields. -/

namespace Sys2Proof

/-- The row of a command's function code, its fields taken from the command's hold bit and argument, is the command
itself (30_encoding.md R82, R84). -/
theorem decodeFunc_fields (i : Instr) : decodeFunc i.hold i.func i.arg = some i := by
  cases i <;> simp [decodeFunc, Instr.hold, Instr.func, Instr.arg]

/-- The command that the map selects has the fields it was selected with: no bit of H, FUNC or ARG is dropped
(30_encoding.md R82, R84). -/
theorem fields_of_decodeFunc {h : Bool} {func : BitVec 6} {a : BitVec 32} {i : Instr}
    (hrow : decodeFunc h func a = some i) : i.hold = h ∧ i.func = func ∧ i.arg = a := by
  unfold decodeFunc at hrow
  split at hrow
  case h_27 => cases hrow -- no row
  all_goals
    rename_i hcode
    obtain rfl := Option.some.inj hrow
    refine ⟨rfl, (BitVec.eq_of_toNat_eq hcode).symm, ?_⟩
    simp [Instr.arg, mkArgB_fields, mkArgE2_fields, mkArgTD_fields, mkArgFD_fields]

/-- A word decodes to a command exactly by bit 39 = 0 and the row of its FUNC (30_encoding.md R81). -/
theorem decodeFunc_of_decodeWord {w : CommandWord} {i : Instr} (h : decodeWord w = .command i) :
    wordR w = false ∧ decodeFunc (wordH w) (wordFunc w) (wordArg w) = some i := by
  unfold decodeWord at h
  split at h
  case isTrue => cases h
  case isFalse hr =>
    split at h
    · exact ⟨Bool.eq_false_of_not_eq_true hr, by cases h; assumption⟩
    · cases h

end Sys2Proof

namespace Sys2Proof.Machine

/-- An operand line without reserved bits is read back: each operand written as a number stands for its value
(30_encoding.md R88). -/
theorem assemble_disassemble {i : Instr} (h : i.reservedZero = true) : assemble (disassemble i) = some i := by
  cases i with
  | setFrequency => simp [assemble, disassemble, oneOperand]
  | toDivisor _ rsv =>
    obtain rfl : rsv = false := by simpa [Instr.reservedZero] using h
    simp [assemble, disassemble, toDivisorOperands]
  | fromDivisor _ rsvHi _ _ rsvLo =>
    obtain ⟨rfl, rfl⟩ : rsvHi = 0#2 ∧ rsvLo = 0#13 := by simpa [Instr.reservedZero] using h
    simp [assemble, disassemble, fromDivisorOperands]
  | _ => -- no operand, or one operand of format B or E2
    obtain rfl := beq_iff_eq.mp h
    simp [assemble, disassemble, noOperand, oneOperand]

end Sys2Proof.Machine
end

section
/-! The claims about command words and the step that runs them (30_encoding.md R80 to R88, 43_control.md R191). -/

namespace Sys2Proof.Machine

/-- Settles O1: the fields of an encoded command are the command's own, and the map selects its row from them. -/
theorem decodeEncodeAgree : Obligations.DecodeEncodeAgree := by
  intro i
  obtain ⟨hR, hH, hFunc, hArg⟩ := Laws.CommandField.fields i
  refine decodeWord_of_decodeFunc hR ?_
  rw [hH, hFunc, hArg]
  exact decodeFunc_fields i

/-- Settles O2: the command decoded from a word has the word's fields, and a word with R = 0 is built from them. -/
theorem encodeDecodeAgree : Obligations.EncodeDecodeAgree := by
  intro w i h
  obtain ⟨hR, hrow⟩ := decodeFunc_of_decodeWord h
  obtain ⟨hH, hFunc, hArg⟩ := fields_of_decodeFunc hrow
  rw [encode, hH, hFunc, hArg]
  exact mkWord_fields w hR

/-- Settles O6: a well-formed command has no reserved bit set, so its line is read back. -/
theorem assemblerReachesEveryCommand : Obligations.AssemblerReachesEveryCommand := by
  intro i h
  simp only [Instr.wellFormed, Bool.and_eq_true] at h
  obtain ⟨⟨-, hreserved⟩, -⟩ := h
  exact assemble_disassemble hreserved

/-- Settles O4: the three cases of taking an event. -/
theorem stepRunsDecodedCommand : Obligations.StepRunsDecodedCommand := by
  intro s
  have hevent : ∀ e rest, s.host = e :: rest → step s = hostEvent e { s with host := rest } := by
    intro e rest hhost
    rw [step, takeEvent, hhost]
  refine ⟨fun w rest i hhost hdec => ?_, hevent, fun hhost => ?_⟩
  · rw [hevent _ rest hhost, hostEvent, runCommand, hdec]
  · rw [step, takeEvent, hhost]

/-- Settles O5: fixed words, each by running the decoder or the assembler. -/
theorem sampleWordsDecode : Obligations.SampleWordsDecode :=
  ⟨by decide, by decide, by decide, by decide, by decide, by decide, by decide, by decide, by decide⟩

end Sys2Proof.Machine
end

section
/-! SUPPORT. What each command is as a function of the state: one of six meanings, chosen by the command alone, so that
claims about two runs of one command compare one function with itself. -/

namespace Sys2Proof

/-- The configuration that a command makes of the current one: a configuration command writes its one field
(42_config.md R161 to R182), the others write none. A clock or threshold code that the checks refuse writes nothing. -/
def Instr.configure (i : Instr) (c : Cfg) : Cfg :=
  match i with
  | .mute _ _ => { c with mute := .both }
  | .muteLeft _ _ => { c with mute := .left }
  | .muteRight _ _ => { c with mute := .right }
  | .unmute _ _ => { c with mute := .none }
  | .unmuteLeft _ _ => { c with mute := Machine.unmuteLeftSel c.mute }
  | .unmuteRight _ _ => { c with mute := Machine.unmuteRightSel c.mute }
  | .setStandby _ _ v => { c with standby := v }
  | .setBand _ _ v => { c with band := v }
  | .setSoftMute _ _ v => { c with softMute := v }
  | .setClock _ _ v => { c with clk := (Clock.ofCode? v).getD c.clk }
  | .setHighCut _ _ v => { c with highCut := v }
  | .setNoiseCancel _ _ v => { c with snc := v }
  | .setDeemphasis _ _ v => { c with deemph := v }
  | .setFrequency _ f => { c with freq := f }
  | .setSoundMode _ _ v => { c with sound := v }
  | .setSearchMode _ _ v => { c with searchMode := v }
  | .setSearchDir _ _ v => { c with searchDir := v }
  | .setSearchThreshold _ _ v => { c with searchThr := (SearchThr.ofCode? v).getD c.searchThr }
  | .setInjection _ _ v => { c with inj := v }
  | .setPort1 _ _ v => { c with port1 := v }
  | .setPort2 _ _ v => { c with port2 := v }
  | .nop _ _ | .upload _ _ | .download _ _ | .toDivisor _ _ _ _ _ _ | .fromDivisor _ _ _ _ _ _ => c

/-- Two commands with one function code and one argument differ in their hold bit at most: the checks of the operands
and the field written are the same. -/
theorem Instr.agree_of_func_arg {i j : Instr} (hfunc : i.func = j.func) (harg : i.arg = j.arg) :
    j.isConfig = i.isConfig ∧ j.reservedZero = i.reservedZero ∧ j.valuesLegal = i.valuesLegal ∧
      j.configure = i.configure := by
  have hj := decodeFunc_fields j
  rw [← hfunc, ← harg] at hj
  generalize j.hold = h at hj
  cases i
  all_goals -- the row of `i` selects `i` itself with the hold bit of `j`
    simp [decodeFunc, Instr.func, Instr.arg] at hj
    subst hj
    exact ⟨rfl, rfl, rfl, rfl⟩

end Sys2Proof

namespace Sys2Proof.Machine

/-- A command that fails no check has a good hold bit, zero reserved bits and legal values. -/
theorem checks_of_refusalCode_none {i : Instr} (h : refusalCode i = none) :
    i.failsReserved = false ∧ i.valuesLegal = true := by
  unfold refusalCode at h
  split at h
  case isTrue => cases h
  case isFalse hrsv =>
    split at h
    case isTrue => cases h
    case isFalse hval => exact ⟨Bool.eq_false_of_not_eq_true hrsv, by simpa using hval⟩

/-- A clock code that the checks let pass names a clock option (30_encoding.md R87). -/
theorem clock_ofCode_of_legal {v : BitVec 2} (h : (v != 3#2) = true) : ∃ c, Clock.ofCode? v = some c :=
  Option.ne_none_iff_exists'.mp fun hnone => by simp [(Clock.ofCode?_eq_none v).mp hnone] at h

/-- A threshold code that the checks let pass names a threshold (30_encoding.md R87). -/
theorem threshold_ofCode_of_legal {v : BitVec 2} (h : (v != 0#2) = true) : ∃ c, SearchThr.ofCode? v = some c :=
  Option.ne_none_iff_exists'.mp fun hnone => by simp [(SearchThr.ofCode?_eq_none v).mp hnone] at h

/-- A configuration command with zero reserved bits and a legal value writes its field and finishes (42_config.md
R160). -/
theorem exec_config_done {i : Instr} (hi : i.isConfig = true) (hz : i.reservedZero = true)
    (hval : i.valuesLegal = true) (s : State) :
    exec i s = .next (finishConfig i.hold { s with cfg := i.configure s.cfg }) := by
  cases i with
  | nop | upload | download | toDivisor | fromDivisor => cases hi
  | setFrequency => rfl
  | setClock =>
    obtain rfl := beq_iff_eq.mp hz
    obtain ⟨clk, hclk⟩ := clock_ofCode_of_legal hval
    simp only [exec, execSetClock, Instr.configure, hclk]
    rfl
  | setSearchThreshold =>
    obtain rfl := beq_iff_eq.mp hz
    obtain ⟨thr, hthr⟩ := threshold_ofCode_of_legal hval
    simp only [exec, execSetSearchThreshold, Instr.configure, hthr]
    rfl
  | _ =>
    obtain rfl := beq_iff_eq.mp hz
    rfl

/-- UPLOAD and every configuration command that fails no check write their configuration and finish: UPLOAD is never
held. -/
theorem exec_finish {i : Instr} (hi : i = .upload false 0#32 ∨ i.isConfig = true) (h : refusalCode i = none)
    (s : State) : exec i s = .next (finishConfig i.hold { s with cfg := i.configure s.cfg }) := by
  obtain rfl | hi := hi
  · rfl
  · obtain ⟨hrsv, hval⟩ := checks_of_refusalCode_none h
    have hz := Instr.reservedZero_of_isConfig hi
    rw [hrsv] at hz
    exact exec_config_done hi hz hval s

/-- TO_DIVISOR of an in-band frequency writes the divisor to RESULT (40_frequency.md R125). -/
theorem exec_toDivisor_done {bd : Band} {v : BitVec 2} {f : BitVec 27} {clk : Clock} (hclk : Clock.ofCode? v = some clk)
    (hin : InBand bd f.toNat) (inj : Injection) (s : State) :
    exec (.toDivisor false false bd v inj f) s =
      .next (setResult (toDivisor inj (refHz s.params clk) f.toNat) s) := by
  have hrange : ¬(f.toNat < bandLo bd ∨ bandHi bd < f.toNat) := by
    rw [inBand_iff] at hin
    omega
  simp [exec, execToDivisor, notHeld, formatTD, hclk, hrange]

/-- FROM_DIVISOR of a divisor writes the frequency to RESULT (40_frequency.md R126). -/
theorem exec_fromDivisor_done {v : BitVec 2} {clk : Clock} (hclk : Clock.ofCode? v = some clk) (inj : Injection)
    (d : BitVec 14) (s : State) :
    exec (.fromDivisor false 0#2 v inj 0#13 d) s =
      .next (setResult (fromDivisor inj (refHz s.params clk) d.toNat) s) := by
  simp [exec, execFromDivisor, notHeld, formatFD, hclk]

/-- A TO_DIVISOR that fails no check is in its band (60_exceptions.md R202). -/
theorem inBand_of_refusalCode_none {hold rsv : Bool} {bd : Band} {v : BitVec 2} {inj : Injection} {f : BitVec 27}
    (h : refusalCode (.toDivisor hold rsv bd v inj f) = none) : InBand bd f.toNat := by
  obtain ⟨hrsv, hval⟩ := checks_of_refusalCode_none h
  obtain ⟨rfl, rfl⟩ : hold = false ∧ rsv = false := by
    simpa [Instr.failsReserved, Instr.hold, Instr.isConfig, Instr.reservedZero] using hrsv
  cases bd <;> simpa [refusalCode, Instr.hold, Instr.reservedZero, hval, InBand] using h

/-- The meaning of a command as a function of the state. It is fixed by the command alone: a refusal, or, when no check
fails, the common end of the configuration commands (NOP ends like a held one and UPLOAD like one that is not held, both
with the configuration as it is), a download, or a conversion, whose value depends on the parameters. -/
inductive Meaning (i : Instr) : (State → State) → Prop where
  | refusal (c : BitVec 3) (hc : refusalCode i = some c) : Meaning i (refused c)
  | finish (h : Bool) : Meaning i fun s => finishConfig h { s with cfg := i.configure s.cfg }
  | download : Meaning i downloadSequence
  | convert (v : Params → Int) : Meaning i fun s => setResult (v s.params) s

/-- Every command has one meaning, which every state runs. -/
theorem exec_meaning (i : Instr) : ∃ m, Meaning i m ∧ ∀ s, exec i s = .next (m s) := by
  cases hcode : refusalCode i with
  | some c => exact ⟨_, .refusal c hcode, fun s => failedCheckRefusesPrecisely.2 i s c hcode⟩
  | none =>
    cases hi : i.isConfig with
    | true => exact ⟨_, .finish i.hold, exec_finish (.inr hi) hcode⟩
    | false =>
      obtain ⟨hrsv, hval⟩ := checks_of_refusalCode_none hcode
      have hpass := Instr.notHeld_reservedZero_of_not_isConfig hi
      rw [hrsv] at hpass
      cases i with
      | nop h a =>
        obtain ⟨rfl, rfl⟩ : h = false ∧ a = 0#32 := by simpa [Instr.hold, Instr.reservedZero] using hpass
        exact ⟨_, .finish true, exec_nop_done⟩
      | upload h a =>
        obtain ⟨rfl, rfl⟩ : h = false ∧ a = 0#32 := by simpa [Instr.hold, Instr.reservedZero] using hpass
        exact ⟨_, .finish false, fun _ => rfl⟩
      | download h a =>
        obtain ⟨rfl, rfl⟩ : h = false ∧ a = 0#32 := by simpa [Instr.hold, Instr.reservedZero] using hpass
        exact ⟨_, .download, fun _ => rfl⟩
      | toDivisor h rsv bd v inj f =>
        obtain ⟨rfl, rfl⟩ : h = false ∧ rsv = false := by simpa [Instr.hold, Instr.reservedZero] using hpass
        obtain ⟨clk, hclk⟩ := clock_ofCode_of_legal hval
        exact ⟨_, .convert fun p => toDivisor inj (refHz p clk) f.toNat,
          exec_toDivisor_done hclk (inBand_of_refusalCode_none hcode) inj⟩
      | fromDivisor h rh v inj rl d =>
        obtain ⟨rfl, rfl, rfl⟩ : h = false ∧ rh = 0#2 ∧ rl = 0#13 := by
          simpa [Instr.hold, Instr.reservedZero] using hpass
        obtain ⟨clk, hclk⟩ := clock_ofCode_of_legal hval
        exact ⟨_, .convert fun p => fromDivisor inj (refHz p clk) d.toNat,
          exec_fromDivisor_done hclk inj d⟩
      | _ => cases hi

end Sys2Proof.Machine
end

section
/-! SUPPORT. The machine's invariant and each effect of a command: every one of them keeps it. -/

namespace Sys2Proof.Machine

/-- The invariant speaks of no configuration, no pending input and no reply. -/
theorem Inv.of_unread {s : State} (hs : Inv s) (c : Cfg) (host : List HostEvent) (replies : List Reply) :
    Inv { s with cfg := c, host := host, replies := replies } :=
  ⟨hs.errFirst, hs.lastCode, hs.refusalSeen, hs.address, hs.sound, hs.lastWrite, hs.divLast, hs.lastRead, hs.status,
    hs.result⟩

/-- The state that a reset leaves, whatever inputs are pending: no flag is set, nothing is valid, nothing was sent. -/
theorem inv_resetWith (p : Params) (host : List HostEvent) (env : Environment) :
    Inv { State.resetWith p with host := host, env := env } where
  errFirst    := rfl
  lastCode    := show (0#3).toNat ≤ 5 by decide
  refusalSeen := fun h => absurd h (show ¬1 ≤ (0#3).toNat by decide)
  address     := nofun
  sound       := nofun
  lastWrite   := rfl
  divLast     := nofun
  lastRead    := rfl
  status      := nofun
  result      := nofun

/-- A refusal sets ERR, and ERR_FIRST if it was clear, and leaves the rest alone. -/
theorem Inv.refused {s : State} (hs : Inv s) {c : BitVec 3} (hc : 1 ≤ c.toNat ∧ c.toNat ≤ 4) : Inv (refused c s) where
  errFirst    := by
    have herr := hs.errFirst
    simp only [Machine.refused, if_true]
    split
    case isTrue he => rwa [if_pos he] at herr
    case isFalse => exact hc
  lastCode    := show c.toNat ≤ 5 by omega
  refusalSeen := fun _ _ => rfl
  address     := hs.address
  sound       := hs.sound
  lastWrite   := hs.lastWrite
  divLast     := hs.divLast
  lastRead    := hs.lastRead
  status      := hs.status
  result      := hs.result

/-- The code of a command that was not refused: OK or TRANSPORT (60_exceptions.md R200). -/
theorem Inv.of_completed {s : State} (hs : Inv s) {c : BitVec 3} (hc : c = 0#3 ∨ c = 5#3) :
    Inv { s with lastCode := c } where
  errFirst    := hs.errFirst
  lastCode    := show c.toNat ≤ 5 by obtain rfl | rfl := hc <;> decide
  refusalSeen := fun (hlo : 1 ≤ c.toNat) (hhi : c.toNat ≤ 4) => by
    obtain rfl | rfl := hc
    · exact absurd hlo (by decide)
    · exact absurd hhi (by decide)
  address     := hs.address
  sound       := hs.sound
  lastWrite   := hs.lastWrite
  divLast     := hs.divLast
  lastRead    := hs.lastRead
  status      := hs.status
  result      := hs.result

/-- One more write request of a sound frame, which WF and DIV_LAST take. -/
theorem Inv.of_sent {s : State} (hs : Inv s) {f : Frame} (hf : FrameSound s.params f) (a : WriteAnswer)
    (env : Environment) :
    Inv { s with
          wf      := f
          divLast := f.b0.extractLsb' 0 6 ++ f.b1
          wfValid := true
          trace   := s.trace ++ [.write 0x60#7 f a]
          env     := env } where
  errFirst    := hs.errFirst
  lastCode    := hs.lastCode
  refusalSeen := hs.refusalSeen
  address     := List.forall_mem_append.mpr ⟨hs.address, by simp [entryAddr]⟩
  sound       := List.forall_mem_append.mpr ⟨hs.sound, by simpa [writtenFrame] using hf⟩
  lastWrite   := by simp [writtenFrame]
  divLast     := fun _ => rfl
  lastRead    := by simpa [receivedFrame] using hs.lastRead
  status      := hs.status
  result      := hs.result

/-- An upload sends a sound frame and completes with OK or TRANSPORT. -/
theorem Inv.uploaded {s t : State} (hs : Inv s) (h : Uploaded s t) : Inv t := by
  obtain ⟨-, hsound⟩ := h.sends_sound
  obtain ⟨ref, fc, d, f, -, -, -, hcarries, rfl⟩ := h
  obtain rfl := hcarries.divisor
  have hcode : (if nextWriteAnswer s.env = .ok then 0#3 else 5#3) = 0#3 ∨
      (if nextWriteAnswer s.env = .ok then 0#3 else 5#3) = 5#3 := ite_eq_or_eq _ _ _
  exact ((hs.of_sent hsound _ _).of_completed hcode).of_unread _ _ _

/-- A configuration command that is done completes with OK, or uploads. -/
theorem Inv.configured {s t : State} (hs : Inv s) {h : Bool} {c : Cfg} (hc : Configured h c s t) : Inv t := by
  have hcfg : Inv { s with cfg := c } := hs.of_unread c s.host s.replies
  cases h with
  | true =>
    obtain rfl : t = { s with cfg := c, lastCode := 0#3 } := hc
    exact hcfg.of_completed (.inl rfl)
  | false => exact hcfg.uploaded hc

/-- One more read request that failed. -/
theorem Inv.of_read_failed {s : State} (hs : Inv s) (env : Environment) :
    Inv { s with trace := s.trace ++ [.read 0x60#7 .fail], env := env } where
  errFirst    := hs.errFirst
  lastCode    := hs.lastCode
  refusalSeen := hs.refusalSeen
  address     := List.forall_mem_append.mpr ⟨hs.address, by simp [entryAddr]⟩
  sound       := List.forall_mem_append.mpr ⟨hs.sound, by simp [writtenFrame]⟩
  lastWrite   := by simpa [writtenFrame] using hs.lastWrite
  divLast     := hs.divLast
  lastRead    := by simpa [receivedFrame] using hs.lastRead
  status      := hs.status
  result      := hs.result

/-- One more frame received, which STATUS takes decoded with some injection side and clock. -/
theorem Inv.of_received {s : State} (hs : Inv s) {st : Status} {inj : Injection} {c : Clock} {f : Frame}
    (hst : StatusOf s.params inj c f st) (env : Environment) :
    Inv { s with
          status      := st
          statusValid := true
          trace       := s.trace ++ [.read 0x60#7 (.ok f)]
          env         := env } where
  errFirst    := hs.errFirst
  lastCode    := hs.lastCode
  refusalSeen := hs.refusalSeen
  address     := List.forall_mem_append.mpr ⟨hs.address, by simp [entryAddr]⟩
  sound       := List.forall_mem_append.mpr ⟨hs.sound, by simp [writtenFrame]⟩
  lastWrite   := by simpa [writtenFrame] using hs.lastWrite
  divLast     := hs.divLast
  lastRead    := by simp [receivedFrame, hst.raw]
  status      := fun _ => ⟨inj, c, by rwa [hst.raw]⟩
  result      := hs.result

/-- A download takes the decoded frame, or completes with TRANSPORT. -/
theorem Inv.downloaded {s : State} (hs : Inv s) : Inv (downloadSequence s) := by
  cases h : nextReadAnswer s.env with
  | ok f =>
    rw [downloadSequence_ok h]
    exact (hs.of_received (decodeFrame_statusOf s.params s.cfg.inj s.cfg.clk f) _).of_completed (.inl rfl)
  | fail =>
    rw [downloadSequence_fail h]
    exact (hs.of_read_failed _).of_completed (.inr rfl)

/-- RESULT takes the answer of one of the two conversions. -/
theorem Inv.of_result {s : State} (hs : Inv s) {r : BitVec 32}
    (hr : (∃ b inj c ref f, RefOf s.params c ref ∧ InBand b f ∧ IsDivisorOf inj ref f r.toInt) ∨
      (∃ inj c ref, ∃ d : BitVec 14, RefOf s.params c ref ∧ IsFrequencyOf inj ref d.toNat r.toInt)) :
    Inv { s with result := r, resultValid := true, lastCode := 0#3 } :=
  have hdone := hs.of_completed (.inl rfl)
  ⟨hdone.errFirst, hdone.lastCode, hdone.refusalSeen, hdone.address, hdone.sound, hdone.lastWrite, hdone.divLast,
    hdone.lastRead, hdone.status, fun _ => hr⟩

/-- Every command keeps the invariant. -/
theorem CommandEffect.keeps_inv {i : Instr} {s t : State} (h : CommandEffect i s t) (hs : Inv s) : Inv t := by
  cases h with
  | refusal c hc h => exact h ▸ hs.refused hc
  | nop _ h => exact h ▸ hs.of_completed (.inl rfl)
  | config c _ h => exact hs.configured h
  | upload _ h => exact hs.uploaded h
  | download _ h => exact h ▸ hs.downloaded
  | toDivisor _ r hr h => exact h ▸ hs.of_result (.inl hr)
  | fromDivisor _ r hr h => exact h ▸ hs.of_result (.inr hr)

/-- Settles O22: a step waits, resets, answers a read, refuses a word, or runs a command; each keeps the invariant. -/
theorem stepKeepsInvariant : Obligations.StepKeepsInvariant := by
  intro s t hs hstep
  have hrest : ∀ rest, Inv { s with host := rest } := fun rest => hs.of_unread s.cfg rest s.replies
  obtain ⟨-, rfl⟩ | ⟨rest, -, rfl⟩ | ⟨n, mask, rest, -, rfl⟩ | ⟨w, rest, -, rfl⟩ | ⟨w, rest, i, -, -, heffect⟩ :=
    step_cases hstep
  · exact hs
  · exact inv_resetWith s.params rest s.env
  · exact hs.of_unread s.cfg rest _
  · exact (hrest rest).refused (by decide)
  · exact heffect.keeps_inv (hrest rest)

/-- Settles O23: the state after reset with the default parameters and no pending input. -/
theorem resetMeetsInvariant : Obligations.ResetMeetsInvariant :=
  inv_resetWith Config.defaultParams [] ⟨[], [], 0⟩

end Sys2Proof.Machine
end

section
/-! SUPPORT. The register read port: which word each register is, where the fields of the words stand, and which bits
have no value (10_state.md R55). -/

namespace Sys2Proof

theorem Band.bit_eq_decide (b : Band) : b.bit = decide (b = .japan) := by cases b <;> rfl
theorem SearchDir.bit_eq_decide (d : SearchDir) : d.bit = decide (d = .up) := by cases d <;> rfl
theorem Injection.bit_eq_decide (i : Injection) : i.bit = decide (i = .high) := by cases i <;> rfl
theorem Sound.bit_eq_decide (v : Sound) : v.bit = decide (v = .mono) := by cases v <;> rfl
theorem Deemph.bit_eq_decide (d : Deemph) : d.bit = decide (d = .de75) := by cases d <;> rfl

end Sys2Proof

namespace Sys2Proof.Machine

/-! ## The register map -/

section RegisterMap

variable (s : State)

theorem regWord_cfgFreq : regWord s 0#4 = s.cfg.freq := rfl
theorem regWord_cfgCtrl : regWord s 1#4 = cfgCtrlWord s.cfg := rfl
theorem regWord_wfLo : regWord s 2#4 = frameLoWord s.wf := rfl
theorem regWord_wfHi : regWord s 3#4 = wfHiWord s := rfl
theorem regWord_status0 : regWord s 4#4 = status0Word s := rfl
theorem regWord_statusFreq : regWord s 5#4 = s.status.freq := rfl
theorem regWord_rawLo : regWord s 6#4 = frameLoWord s.status.raw := rfl
theorem regWord_rawHi : regWord s 7#4 = statusRawHiWord s := rfl
theorem regWord_result : regWord s 8#4 = s.result := rfl
theorem regWord_errStat : regWord s 9#4 = errStatWord s := rfl

end RegisterMap

/-- The registers from 10 on are reserved. -/
theorem regWord_reserved (s : State) {n : BitVec 4} (hn : 10 ≤ n.toNat) : regWord s n = 0#32 := by
  unfold regWord
  split
  case h_11 => rfl
  all_goals omega

/-- Registers 2 and 6 hold four bytes, byte 0 at the top. -/
theorem frameLoWord_fields (f : Frame) :
    (frameLoWord f).extractLsb' 24 8 = f.b0 ∧ (frameLoWord f).extractLsb' 16 8 = f.b1 ∧
      (frameLoWord f).extractLsb' 8 8 = f.b2 ∧ (frameLoWord f).extractLsb' 0 8 = f.b3 := by
  unfold frameLoWord
  simp (disch := decide) only [BitVec.extractLsb'_append_eq_of_le, BitVec.extractLsb'_append_eq_of_add_le]
  simp

/-- WF_HI: byte 4 of WF, DIV_LAST and WF_VALID. -/
theorem wfHiWord_fields (s : State) :
    (wfHiWord s).extractLsb' 0 8 = s.wf.b4 ∧ (wfHiWord s).extractLsb' 8 14 = s.divLast ∧
      (wfHiWord s).extractLsb' 22 9 = 0#9 ∧ (wfHiWord s).getLsbD 31 = s.wfValid := by
  unfold wfHiWord
  simp (disch := decide) only [BitVec.extractLsb'_append_eq_of_le, BitVec.extractLsb'_append_eq_of_add_le,
    BitVec.getLsbD_append]
  simp

/-- STATUS_RAW_HI: byte 4 as received and STATUS_VALID. -/
theorem statusRawHiWord_fields (s : State) :
    (statusRawHiWord s).extractLsb' 0 8 = s.status.raw.b4 ∧ (statusRawHiWord s).extractLsb' 8 23 = 0#23 ∧
      (statusRawHiWord s).getLsbD 31 = s.statusValid := by
  unfold statusRawHiWord
  simp (disch := decide) only [BitVec.extractLsb'_append_eq_of_le, BitVec.extractLsb'_append_eq_of_add_le,
    BitVec.getLsbD_append]
  simp

/-- STATUS0: the flags, the level, the divisor and STATUS_VALID. -/
theorem status0Word_fields (s : State) :
    (status0Word s).getLsbD 0 = s.status.ready ∧ (status0Word s).getLsbD 1 = s.status.blf ∧
      (status0Word s).getLsbD 2 = s.status.stereo ∧ (status0Word s).extractLsb' 3 4 = s.status.level ∧
      (status0Word s).extractLsb' 7 14 = s.status.div ∧ (status0Word s).extractLsb' 21 10 = 0#10 ∧
      (status0Word s).getLsbD 31 = s.statusValid := by
  unfold status0Word
  simp (disch := decide) only [BitVec.extractLsb'_append_eq_of_le, BitVec.extractLsb'_append_eq_of_add_le,
    BitVec.getLsbD_append]
  simp

/-- ERRSTAT: ERR, ERR_FIRST, LAST_CODE and RESULT_VALID. -/
theorem errStatWord_fields (s : State) :
    (errStatWord s).getLsbD 0 = s.err ∧ (errStatWord s).extractLsb' 1 3 = s.errFirst ∧
      (errStatWord s).extractLsb' 4 3 = s.lastCode ∧ (errStatWord s).extractLsb' 7 24 = 0#24 ∧
      (errStatWord s).getLsbD 31 = s.resultValid := by
  unfold errStatWord
  simp (disch := decide) only [BitVec.extractLsb'_append_eq_of_le, BitVec.extractLsb'_append_eq_of_add_le,
    BitVec.getLsbD_append]
  simp

/-- CFG_CTRL: the one-bit fields of CFG. -/
theorem cfgCtrlWord_bits (c : Cfg) :
    (cfgCtrlWord c).getLsbD 0 = c.band.bit ∧ (cfgCtrlWord c).getLsbD 1 = c.standby ∧
      (cfgCtrlWord c).getLsbD 4 = c.softMute ∧ (cfgCtrlWord c).getLsbD 5 = c.searchMode ∧
      (cfgCtrlWord c).getLsbD 6 = c.searchDir.bit ∧ (cfgCtrlWord c).getLsbD 9 = c.inj.bit ∧
      (cfgCtrlWord c).getLsbD 10 = c.sound.bit ∧ (cfgCtrlWord c).getLsbD 11 = c.highCut ∧
      (cfgCtrlWord c).getLsbD 12 = c.snc ∧ (cfgCtrlWord c).getLsbD 15 = c.deemph.bit ∧
      (cfgCtrlWord c).getLsbD 16 = c.port1 ∧ (cfgCtrlWord c).getLsbD 17 = c.port2 := by
  unfold cfgCtrlWord
  simp only [BitVec.getLsbD_append]
  simp

/-- CFG_CTRL: the two-bit codes of CFG, and the bits above the fields. -/
theorem cfgCtrlWord_codes (c : Cfg) :
    (cfgCtrlWord c).extractLsb' 2 2 = c.mute.code ∧ (cfgCtrlWord c).extractLsb' 7 2 = c.searchThr.code ∧
      (cfgCtrlWord c).extractLsb' 13 2 = c.clk.code ∧ (cfgCtrlWord c).extractLsb' 18 14 = 0#14 := by
  unfold cfgCtrlWord
  simp (disch := decide) only [BitVec.extractLsb'_append_eq_of_le, BitVec.extractLsb'_append_eq_of_add_le]
  simp

/-! ## The bits without a value -/

/-- Bit `k` of register `n` has no value now: it belongs to WF or DIV_LAST while WF_VALID = 0, to STATUS while
STATUS_VALID = 0, or to RESULT while RESULT_VALID = 0 (10_state.md R49, R52, R53, R55). -/
def UnspecifiedBit (s : State) (n : BitVec 4) (k : Nat) : Prop :=
  (s.wfValid = false ∧ (n = 2#4 ∨ (n = 3#4 ∧ k ≤ 21))) ∨
  (s.statusValid = false ∧ ((n = 4#4 ∧ k ≤ 20) ∨ n = 5#4 ∨ n = 6#4 ∨ (n = 7#4 ∧ k ≤ 7))) ∨
  (s.resultValid = false ∧ n = 8#4)

/-- A bit has a value when the valid bit of its register is 1, or when it belongs to no such register. -/
theorem not_unspecifiedBit_iff {s : State} {n : BitVec 4} {k : Nat} :
    ¬UnspecifiedBit s n k ↔
      (n = 2#4 ∨ (n = 3#4 ∧ k ≤ 21) → s.wfValid = true) ∧
      ((n = 4#4 ∧ k ≤ 20) ∨ n = 5#4 ∨ n = 6#4 ∨ (n = 7#4 ∧ k ≤ 7) → s.statusValid = true) ∧
      (n = 8#4 → s.resultValid = true) := by
  have hguard : ∀ (valid : Bool) (bits : Prop), ¬(valid = false ∧ bits) ↔ (bits → valid = true) := by
    intro valid bits
    cases valid <;> simp
  simp only [UnspecifiedBit, not_or, hguard]

/-! The bits above the fields of registers 3, 4 and 7 tell of the valid bit alone. -/

theorem wfHiWord_getLsbD_high {s t : State} (h : s.wfValid = t.wfValid) {k : Nat} (hk : 22 ≤ k) :
    (wfHiWord s).getLsbD k = (wfHiWord t).getLsbD k := by
  have hwf : ¬k < 8 := by omega
  have hdiv : ¬k - 8 < 14 := by omega
  simp only [wfHiWord, BitVec.getLsbD_append, h, if_neg hwf, if_neg hdiv]

theorem status0Word_getLsbD_high {s t : State} (h : s.statusValid = t.statusValid) {k : Nat} (hk : 21 ≤ k) :
    (status0Word s).getLsbD k = (status0Word t).getLsbD k := by
  have hready : ¬k < 1 := by omega
  have hblf : ¬k - 1 < 1 := by omega
  have hstereo : ¬k - 1 - 1 < 1 := by omega
  have hlevel : ¬k - 1 - 1 - 1 < 4 := by omega
  have hdiv : ¬k - 1 - 1 - 1 - 4 < 14 := by omega
  simp only [status0Word, BitVec.getLsbD_append, h, if_neg hready, if_neg hblf, if_neg hstereo, if_neg hlevel,
    if_neg hdiv]

theorem statusRawHiWord_getLsbD_high {s t : State} (h : s.statusValid = t.statusValid) {k : Nat} (hk : 8 ≤ k) :
    (statusRawHiWord s).getLsbD k = (statusRawHiWord t).getLsbD k := by
  have hraw : ¬k < 8 := by omega
  simp only [statusRawHiWord, BitVec.getLsbD_append, h, if_neg hraw]

/-- The mask a valid bit guards: nothing while the bit is 1, the bits up to `m` while it is 0. -/
theorem getLsbD_guarded (valid : Bool) (m : Nat) {k : Nat} (hk : k < 32) :
    (if valid then 0#32 else BitVec.ofNat 32 (2 ^ (m + 1) - 1)).getLsbD k = true ↔ valid = false ∧ k ≤ m := by
  cases valid with
  | true => simp
  | false =>
    rw [if_neg (by decide), BitVec.getLsbD_ofNat, Nat.testBit_two_pow_sub_one]
    simp [hk]

/-- The masks of the model are the unspecified bits of the map. -/
theorem getLsbD_unspecifiedBits (s : State) (n : BitVec 4) {k : Nat} (hk : k < 32) :
    (unspecifiedBits s n).getLsbD k = true ↔ UnspecifiedBit s n k := by
  have hall : ∀ valid : Bool, (if valid then 0#32 else 0xFFFFFFFF#32).getLsbD k = true ↔ valid = false :=
    fun valid => (getLsbD_guarded valid 31 hk).trans (and_iff_left (by omega))
  have h21 := fun valid => getLsbD_guarded valid 21 hk
  have h20 := fun valid => getLsbD_guarded valid 20 hk
  have h7 := fun valid => getLsbD_guarded valid 7 hk
  norm_num only at h21 h20 h7
  unfold unspecifiedBits UnspecifiedBit
  simp only [BitVec.toNat_eq]
  split
  case h_8 => simp_all
  all_goals
    rename_i hn
    simp only [hn, hall, h21, h20, h7]
    simp

/-- Two words have no bit in common. -/
theorem and_eq_zero_iff {w : Nat} (x y : BitVec w) :
    x &&& y = 0#w ↔ ∀ k < w, ¬(x.getLsbD k = true ∧ y.getLsbD k = true) := by
  simp [BitVec.eq_of_getLsbD_eq_iff]

/-- A read that uses no unspecified bit is answered, and one that uses such a bit faults. -/
theorem unspecifiedBits_and_mask_eq_zero_iff (s : State) (n : BitVec 4) (mask : Word) :
    unspecifiedBits s n &&& mask = 0#32 ↔ ¬∃ k, mask.getLsbD k = true ∧ UnspecifiedBit s n k := by
  rw [and_eq_zero_iff, not_exists]
  refine forall_congr' fun k => ?_
  by_cases hk : k < 32
  · rw [getLsbD_unspecifiedBits s n hk]
    tauto
  · simp [hk, BitVec.getLsbD_of_ge mask k (by omega)]

end Sys2Proof.Machine
end

section
/-! SUPPORT. The simulation between two states that differ in values without meaning only (10_state.md R49, R52, R53):
each command, each host event and each step keeps them so. -/

namespace Sys2Proof.Machine

section Related

variable {s t : State}

theorem SameButUnspecified.refl (s : State) : SameButUnspecified s s :=
  ⟨rfl, fun _ => ⟨rfl, rfl⟩, fun _ => rfl, fun _ => rfl⟩

/-- The second state as an update of the first. -/
theorem SameButUnspecified.eq_update (h : SameButUnspecified s t) :
    ∃ wf div st r, t = { s with wf := wf, divLast := div, status := st, result := r } ∧
      (s.wfValid = true → wf = s.wf ∧ div = s.divLast) ∧ (s.statusValid = true → st = s.status) ∧
      (s.resultValid = true → r = s.result) :=
  ⟨_, _, _, _, h.rest, h.frame, h.status, h.result⟩

theorem SameButUnspecified.with_host (h : SameButUnspecified s t) (rest : List HostEvent) :
    SameButUnspecified { s with host := rest } { t with host := rest } := by
  obtain ⟨wf, div, st, r, rfl, hframe, hstatus, hresult⟩ := h.eq_update
  exact ⟨rfl, hframe, hstatus, hresult⟩

theorem SameButUnspecified.with_reply (h : SameButUnspecified s t) (reply : Reply) :
    SameButUnspecified { s with replies := s.replies ++ [reply] } { t with replies := t.replies ++ [reply] } := by
  obtain ⟨wf, div, st, r, rfl, hframe, hstatus, hresult⟩ := h.eq_update
  exact ⟨rfl, hframe, hstatus, hresult⟩

theorem SameButUnspecified.refused (h : SameButUnspecified s t) (c : BitVec 3) :
    SameButUnspecified (refused c s) (refused c t) := by
  obtain ⟨wf, div, st, r, rfl, hframe, hstatus, hresult⟩ := h.eq_update
  exact ⟨rfl, hframe, hstatus, hresult⟩

/-- One command keeps the relation: a refusal and a held command write none of the registers concerned, and an upload, a
download and a conversion write the same values in both states. -/
theorem Meaning.keeps_sameButUnspecified {i : Instr} {m : State → State} (hm : Meaning i m)
    (h : SameButUnspecified s t) : SameButUnspecified (m s) (m t) := by
  obtain ⟨wf, div, st, r, rfl, hframe, hstatus, hresult⟩ := h.eq_update
  cases hm with
  | refusal c => exact h.refused c
  | finish hold =>
    cases hold with
    | true => exact ⟨rfl, hframe, hstatus, hresult⟩
    | false => exact ⟨rfl, fun _ => ⟨rfl, rfl⟩, hstatus, hresult⟩
  | download =>
    cases ha : nextReadAnswer s.env with
    | ok f =>
      rw [downloadSequence_ok ha, downloadSequence_ok (f := f)]
      · exact ⟨rfl, hframe, fun _ => rfl, hresult⟩
      · exact ha
    | fail =>
      rw [downloadSequence_fail ha, downloadSequence_fail]
      · exact ⟨rfl, hframe, hstatus, hresult⟩
      · exact ha
  | convert => exact ⟨rfl, hframe, hstatus, fun _ => rfl⟩

/-- The bits with a value are the same in both states. -/
theorem SameButUnspecified.getLsbD_regWord (h : SameButUnspecified s t) {n : BitVec 4} {k : Nat}
    (hk : ¬UnspecifiedBit s n k) : (regWord s n).getLsbD k = (regWord t n).getLsbD k := by
  obtain ⟨wf, div, st, r, rfl, hframe, hstatus, hresult⟩ := h.eq_update
  obtain ⟨hwf, hst, hres⟩ := not_unspecifiedBit_iff.mp hk
  simp only [BitVec.toNat_eq] at hwf hst hres
  unfold regWord
  split
  case h_3 hn => rw [(hframe (hwf (.inl hn))).1]
  case h_4 hn =>
    by_cases hlow : k ≤ 21
    · obtain ⟨rfl, rfl⟩ := hframe (hwf (.inr ⟨hn, hlow⟩))
      rfl
    · exact wfHiWord_getLsbD_high (by rfl) (Nat.lt_of_not_le hlow)
  case h_5 hn =>
    by_cases hlow : k ≤ 20
    · obtain rfl := hstatus (hst (.inl ⟨hn, hlow⟩))
      rfl
    · exact status0Word_getLsbD_high (by rfl) (Nat.lt_of_not_le hlow)
  case h_6 hn => rw [hstatus (hst (.inr (.inl hn)))]
  case h_7 hn => rw [hstatus (hst (.inr (.inr (.inl hn))))]
  case h_8 hn =>
    by_cases hlow : k ≤ 7
    · obtain rfl := hstatus (hst (.inr (.inr (.inr ⟨hn, hlow⟩))))
      rfl
    · exact statusRawHiWord_getLsbD_high (by rfl) (Nat.lt_of_not_le hlow)
  case h_9 hn => rw [hresult (hres hn)]
  all_goals rfl

theorem SameButUnspecified.unspecifiedBits_eq (h : SameButUnspecified s t) (n : BitVec 4) :
    unspecifiedBits s n = unspecifiedBits t n := by
  rw [h.rest]
  rfl

/-- The selected bits of a register are the same in both states if all of them have a value. -/
theorem SameButUnspecified.regWord_and_eq (h : SameButUnspecified s t) {n : BitVec 4} {mask : Word}
    (hmask : unspecifiedBits s n &&& mask = 0#32) : regWord s n &&& mask = regWord t n &&& mask := by
  refine BitVec.eq_of_getLsbD_eq fun k _ => ?_
  rw [BitVec.getLsbD_and, BitVec.getLsbD_and]
  cases hk : mask.getLsbD k with
  | false => simp
  | true =>
    have hspec : ¬UnspecifiedBit s n k := fun hun =>
      (unspecifiedBits_and_mask_eq_zero_iff s n mask).mp hmask ⟨k, hk, hun⟩
    rw [h.getLsbD_regWord hspec]

/-- The observation shows the bits with a value, the mask of the others and the trace. -/
theorem SameButUnspecified.observe_eq (h : SameButUnspecified s t) : observe s = observe t := by
  have htrace : s.trace = t.trace := by rw [h.rest]
  have hspecified : ∀ n, specifiedWord s n = specifiedWord t n := fun n => by
    rw [specifiedWord, specifiedWord, ← h.unspecifiedBits_eq]
    exact h.regWord_and_eq (BitVec.and_not_self _)
  simp only [observe, htrace, hspecified, h.unspecifiedBits_eq]

/-- What two related states do with one event: both go on to related states, or both stop on the same read. -/
inductive SameOutcome : Host.Outcome State Fault Refusal → Host.Outcome State Fault Refusal → Prop where
  | next {s t : State} (h : SameButUnspecified s t) : SameOutcome (.next s) (.next t)
  | fault (f : Fault) : SameOutcome (.fault f) (.fault f)

theorem SameOutcome.of_next {o : Host.Outcome State Fault Refusal} (h : SameOutcome (.next s) o) :
    ∃ t, o = .next t ∧ SameButUnspecified s t := by
  cases h with
  | next h => exact ⟨_, rfl, h⟩

theorem SameOutcome.of_fault {f : Fault} {o : Host.Outcome State Fault Refusal} (h : SameOutcome (.fault f) o) :
    o = .fault f := by
  cases h
  rfl

theorem SameButUnspecified.runCommand (h : SameButUnspecified s t) (w : CommandWord) :
    SameOutcome (runCommand w s) (runCommand w t) := by
  unfold Machine.runCommand
  cases decodeWord w with
  | reject => exact .next (h.refused 1#3)
  | command i =>
    obtain ⟨m, hm, hexec⟩ := exec_meaning i
    simp only [hexec]
    exact .next (hm.keeps_sameButUnspecified h)

theorem SameButUnspecified.hostRead (h : SameButUnspecified s t) (n : BitVec 4) (mask : Word) :
    SameOutcome (hostRead n mask s) (hostRead n mask t) := by
  unfold Machine.hostRead
  rw [← h.unspecifiedBits_eq]
  split
  case isTrue hmask =>
    rw [← h.regWord_and_eq hmask]
    exact .next (h.with_reply _)
  case isFalse => exact .fault _

theorem SameButUnspecified.hostEvent (h : SameButUnspecified s t) (e : HostEvent) :
    SameOutcome (hostEvent e s) (hostEvent e t) := by
  cases e with
  | reset =>
    have hreset : applyReset t = applyReset s := by rw [h.rest]; rfl
    rw [Machine.hostEvent, Machine.hostEvent, hreset]
    exact .next (.refl _)
  | command w => exact h.runCommand w
  | readReg n mask => exact h.hostRead n mask

/-- The step commutes with a change of unspecified values. -/
theorem SameButUnspecified.step (h : SameButUnspecified s t) : SameOutcome (step s) (step t) := by
  have hhost : t.host = s.host := by rw [h.rest]
  unfold Machine.step takeEvent
  rw [hhost]
  cases s.host with
  | nil => exact .next h
  | cons e rest => exact (h.with_host rest).hostEvent e

end Related

end Sys2Proof.Machine
end

section
/-! The claims about the register map and the read port (10_state.md R55). -/

namespace Sys2Proof.Machine

/-- Settles O35: the bits and codes of CFG_CTRL, the one-bit fields being 1 for the value the map names. -/
theorem configRegistersPlaceFields : Obligations.ConfigRegistersPlaceFields := by
  intro s
  rw [regWord_cfgFreq, regWord_cfgCtrl, ← Band.bit_eq_decide, ← SearchDir.bit_eq_decide, ← Injection.bit_eq_decide,
    ← Sound.bit_eq_decide, ← Deemph.bit_eq_decide]
  obtain ⟨hband, hstandby, hsoftMute, hsearchMode, hdir, hinj, hsound, hhcc, hsnc, hdeemph, hport1, hport2⟩ :=
    cfgCtrlWord_bits s.cfg
  obtain ⟨hmute, hthr, hclk, hzero⟩ := cfgCtrlWord_codes s.cfg
  exact ⟨rfl, hband, hstandby, hmute, hsoftMute, hsearchMode, hdir, hthr, hinj, hsound, hhcc, hsnc, hclk, hdeemph,
    hport1, hport2, hzero⟩

/-- Settles O36: the words of the two frames, each in two registers. -/
theorem frameRegistersPlaceFields : Obligations.FrameRegistersPlaceFields := by
  intro s
  rw [regWord_wfLo, regWord_wfHi, regWord_rawLo, regWord_rawHi]
  obtain ⟨hwf0, hwf1, hwf2, hwf3⟩ := frameLoWord_fields s.wf
  obtain ⟨hwf4, hdiv, hwfZero, hwfValid⟩ := wfHiWord_fields s
  obtain ⟨hraw0, hraw1, hraw2, hraw3⟩ := frameLoWord_fields s.status.raw
  exact ⟨hwf0, hwf1, hwf2, hwf3, hwf4, hdiv, hwfZero, hwfValid, hraw0, hraw1, hraw2, hraw3, statusRawHiWord_fields s⟩

/-- Settles O37: the words of STATUS0 and ERRSTAT, the two whole registers, and the reserved ones. -/
theorem statusRegistersPlaceFields : Obligations.StatusRegistersPlaceFields := by
  intro s
  rw [regWord_status0, regWord_errStat]
  obtain ⟨hready, hblf, hstereo, hlevel, hdiv, hzero, hvalid⟩ := status0Word_fields s
  obtain ⟨herr, hfirst, hlast, hzero', hresult⟩ := errStatWord_fields s
  exact ⟨hready, hblf, hstereo, hlevel, hdiv, hzero, hvalid, regWord_statusFreq s, regWord_result s, herr, hfirst, hlast,
    hzero', hresult, fun n => regWord_reserved s⟩

/-- Settles O33: the read port's own test is the obligation's condition. -/
theorem registerReadFaultsOnlyOnUnspecified : Obligations.RegisterReadFaultsOnlyOnUnspecified := by
  intro s n mask rest hhost
  have hmask := unspecifiedBits_and_mask_eq_zero_iff s n mask
  have hstep : step s = hostRead n mask { s with host := rest } := by
    rw [step, takeEvent, hhost]
    rfl
  rw [hstep]
  exact ⟨fun h => if_neg fun hz => hmask.mp hz h, fun h => if_pos (hmask.mpr h)⟩

end Sys2Proof.Machine
end

section
/-! The claim about the values without meaning (10_state.md R49, R52, R53). -/

namespace Sys2Proof.Machine

/-- Settles O34: related states have the same outcome of a step and the same observation. -/
theorem unspecifiedValuesReachNothing : Obligations.UnspecifiedValuesReachNothing := by
  intro s t h
  have hstep := h.step
  exact ⟨fun s' hs => (hs ▸ hstep).of_next, fun f hs => (hs ▸ hstep).of_fault, h.observe_eq⟩

end Sys2Proof.Machine
end

section
/-! SUPPORT. What uploads, downloads and commands leave unchanged, and what a repeated upload finds. -/

namespace Sys2Proof.Machine

/-! ## The upload sequence -/

/-- An upload adds one write request of the encoded frame to the trace (41_codec.md R144). -/
theorem uploadSequence_trace (s : State) :
    (uploadSequence s).trace = s.trace ++ [.write 0x60#7 (uploadFrame s.params s.cfg) (nextWriteAnswer s.env)] := rfl

/-- The clamped frequency is in its band and so fits 32 bits. -/
theorem uploadFreq_lt (c : Cfg) : uploadFreq c < 2 ^ 32 := by
  have hin := bandClamp_inBand c.freq.toNat c.band
  rw [inBand_iff] at hin
  have hhi : bandHi c.band < 2 ^ 32 := by cases c.band <;> decide
  exact lt_of_le_of_lt hin.2 hhi

/-- The clamped frequency is the clamped frequency of itself: the clamp's write-back does not change it. -/
theorem uploadFreq_clampWriteback (p : Params) (c : Cfg) : uploadFreq (clampWriteback p c) = uploadFreq c := by
  unfold clampWriteback
  split
  · change bandClamp (BitVec.ofNat 32 (uploadFreq c)).toNat c.band = uploadFreq c
    rw [BitVec.toNat_ofNat, Nat.mod_eq_of_lt (uploadFreq_lt c)]
    exact bandClamp_of_inBand (bandClamp_inBand _ _)
  · rfl

/-- The write-back changes the frequency alone, and its clamped value not at all, so the divisor stays. -/
theorem uploadDivisor_clampWriteback (p : Params) (c : Cfg) :
    uploadDivisor p (clampWriteback p c) = uploadDivisor p c := by
  rw [uploadDivisor, uploadFreq_clampWriteback]
  unfold clampWriteback
  split <;> rfl

theorem uploadFrame_clampWriteback (p : Params) (c : Cfg) : uploadFrame p (clampWriteback p c) = uploadFrame p c := by
  rw [uploadFrame, uploadDivisor_clampWriteback]
  unfold clampWriteback
  split <;> rfl

theorem clampWriteback_idem (p : Params) (c : Cfg) :
    clampWriteback p (clampWriteback p c) = clampWriteback p c := by
  rw [clampWriteback, uploadFreq_clampWriteback]
  unfold clampWriteback
  split <;> rfl

/-- A second upload changes the trace, the environment and what LAST_CODE reports, and nothing else (20_memory.md
R68). -/
theorem uploadSequence_again (s : State) :
    uploadSequence (uploadSequence s) =
      { uploadSequence s with
        trace    := (uploadSequence (uploadSequence s)).trace
        env      := (uploadSequence (uploadSequence s)).env
        lastCode := writeCode (nextWriteAnswer (uploadSequence s).env) } := by
  have hcfg := clampWriteback_idem s.params s.cfg
  have hframe := uploadFrame_clampWriteback s.params s.cfg
  have hdivisor := uploadDivisor_clampWriteback s.params s.cfg
  simp only [uploadSequence, setLastCode, memWrite, loadWriteFrame, hcfg, hframe, hdivisor]

/-- What an upload leaves alone: STATUS, RESULT, the parameters, the host's inputs and what the host has read; of CFG
it changes the frequency at most, and that under P_CLAMP_WRITEBACK. -/
theorem Uploaded.frame {s t : State} (h : Uploaded s t) :
    ({ t.cfg with freq := s.cfg.freq } = s.cfg ∧ (s.params.clampWriteback = false → t.cfg = s.cfg)) ∧
      t.wfValid = true ∧ (t.status = s.status ∧ t.statusValid = s.statusValid) ∧
      (t.result = s.result ∧ t.resultValid = s.resultValid) ∧
      t.params = s.params ∧ t.host = s.host ∧ t.replies = s.replies := by
  obtain ⟨ref, fc, d, f, -, -, -, -, rfl⟩ := h
  refine ⟨⟨?_, fun hoff => by simp [hoff]⟩, rfl, ⟨rfl, rfl⟩, ⟨rfl, rfl⟩, rfl, rfl, rfl⟩
  cases s.params.clampWriteback <;> rfl

/-! ## Downloads and configuration commands -/

/-- What a download leaves alone: everything but STATUS, LAST_CODE, the trace and the environment. -/
theorem downloadSequence_frame (s : State) :
    ∃ st valid trace env code, downloadSequence s =
      { s with status := st, statusValid := valid, trace := trace, env := env, lastCode := code } ∧
      (s.statusValid = true → valid = true) := by
  cases h : nextReadAnswer s.env with
  | ok f => exact ⟨_, _, _, _, _, downloadSequence_ok h, fun _ => rfl⟩
  | fail => exact ⟨_, _, _, _, _, downloadSequence_fail h, id⟩

/-- A configuration command that is done was held, or it has uploaded (42_config.md R160). -/
theorem Configured.cases {h : Bool} {c : Cfg} {s t : State} (hc : Configured h c s t) :
    (h = true ∧ t = { s with cfg := c, lastCode := 0#3 }) ∨ (h = false ∧ Uploaded { s with cfg := c } t) := by
  cases h with
  | true => exact .inl ⟨rfl, hc⟩
  | false => exact .inr ⟨rfl, hc⟩

/-- A configuration command whose checks pass completes. -/
theorem configCommand_completes (h : Bool) (c : Cfg) (s : State) :
    ∃ t, (.next (configCommand h true (some c) s) : Host.Outcome State Fault Refusal) = .next t ∧ Configured h c s t :=
  ⟨_, rfl, finishConfig_configured h c s⟩

/-! ## The environment's settled answers -/

/-- A settled write answer is given to the next write request and is then gone (20_memory.md R66). -/
theorem writeAnswer_of_settled {e : Environment} {a : WriteAnswer} {rest : List WriteAnswer}
    (h : e.writeAnswers = a :: rest) :
    nextWriteAnswer e = a ∧ afterWriteAnswer e = { e with writeAnswers := rest } := by
  rw [nextWriteAnswer, afterWriteAnswer, h]
  exact ⟨rfl, rfl⟩

/-- A settled read answer is given to the next read request and is then gone (20_memory.md R66). -/
theorem readAnswer_of_settled {e : Environment} {a : ReadAnswer} {rest : List ReadAnswer}
    (h : e.readAnswers = a :: rest) :
    nextReadAnswer e = a ∧ afterReadAnswer e = { e with readAnswers := rest } := by
  rw [nextReadAnswer, afterReadAnswer, h]
  exact ⟨rfl, rfl⟩

end Sys2Proof.Machine
end

section
/-! The claims about the single commands (40_frequency.md R125 and R126, 41_codec.md R144 to R147, 42_config.md). -/

namespace Sys2Proof.Machine

/-- Settles O12: each command is the common operation with the selector of its row. -/
theorem muteFamilyFollowsTable : Obligations.MuteFamilyFollowsTable := fun h s =>
  ⟨configCommand_completes h _ s, configCommand_completes h _ s, configCommand_completes h _ s,
    configCommand_completes h _ s, configCommand_completes h _ s, configCommand_completes h _ s⟩

/-- Settles O13: each command is the common operation with its field written; the three clock codes name their option. -/
theorem tuningCommandsComplete : Obligations.TuningCommandsComplete := fun h s =>
  ⟨fun _ => configCommand_completes h _ s, fun _ => configCommand_completes h _ s,
    fun _ => configCommand_completes h _ s, configCommand_completes h _ s, configCommand_completes h _ s,
    configCommand_completes h _ s⟩

/-- Settles O14: each command is the common operation with its field written. -/
theorem audioCommandsComplete : Obligations.AudioCommandsComplete := fun h s =>
  ⟨fun _ => configCommand_completes h _ s, fun _ => configCommand_completes h _ s,
    fun _ => configCommand_completes h _ s, fun _ => configCommand_completes h _ s,
    fun _ => configCommand_completes h _ s⟩

/-- Settles O15: each command is the common operation with its field written; the three codes name their threshold. -/
theorem searchCommandsComplete : Obligations.SearchCommandsComplete := fun h s =>
  ⟨fun _ => configCommand_completes h _ s, fun _ => configCommand_completes h _ s, configCommand_completes h _ s,
    configCommand_completes h _ s, configCommand_completes h _ s⟩

/-- Settles O16: each command is the common operation with its field written. -/
theorem standbyAndPortsComplete : Obligations.StandbyAndPortsComplete := fun h s =>
  ⟨fun _ => configCommand_completes h _ s, fun _ => configCommand_completes h _ s,
    fun _ => configCommand_completes h _ s⟩

/-- Settles O18: UPLOAD is the upload sequence. -/
theorem uploadCompletes : Obligations.UploadCompletes := fun s => ⟨_, rfl, uploadSequence_uploaded s⟩

/-- Settles O19: DOWNLOAD is the download sequence, whose two cases are the two answers. -/
theorem downloadCompletes : Obligations.DownloadCompletes := by
  refine fun s => ⟨fun f ha => ⟨_, decodeFrame_statusOf s.params s.cfg.inj s.cfg.clk f, ?_⟩, fun ha => ?_⟩
  · exact congrArg Host.Outcome.next (downloadSequence_ok ha)
  · exact congrArg Host.Outcome.next (downloadSequence_fail ha)

/-- Settles O20: RESULT holds the divisor, which is small enough to keep its value in 32 bits. -/
theorem toDivisorCompletes : Obligations.ToDivisorCompletes := by
  rintro s bd v inj f c ref hin rfl href
  obtain rfl := (refOf_iff _ _ _).mp href
  obtain ⟨href, -⟩ := refHz_bounds s.params c
  obtain ⟨hlo, hhi⟩ := toDivisor_bounds inj hin href
  have hkeep : (BitVec.ofInt 32 (toDivisor inj (refHz s.params c) f.toNat)).toInt = _ :=
    toInt_ofInt32 (by omega) (by omega)
  refine ⟨_, ?_, ?_, ?_, exec_toDivisor_done (Clock.ofCode?_code c) hin inj s⟩
  · rw [hkeep]
    exact toDivisor_spec inj _ (by omega)
  · rwa [hkeep]
  · rwa [hkeep]

/-- Settles O21: RESULT holds the frequency, which fits 32 bits for every 14-bit divisor. -/
theorem fromDivisorCompletes : Obligations.FromDivisorCompletes := by
  rintro s v inj d c ref rfl href
  obtain rfl := (refOf_iff _ _ _).mp href
  obtain ⟨hlo, hhi⟩ := fromDivisor_bounds inj d.isLt (refHz_bounds s.params c).2
  refine ⟨_, ?_, exec_fromDivisor_done (Clock.ofCode?_code c) inj d s⟩
  rw [toInt_ofInt32 hlo hhi]
  exact fromDivisor_spec inj _ _

/-- Settles O28: the status is the decoder's answer for the frame, the injection side and the clock's reference. -/
theorem downloadReadsInjectionAndClock : Obligations.DownloadReadsInjectionAndClock := by
  rintro s₁ s₂ t₁ t₂ f hinj hclk hparams h₁ h₂ ⟨⟩ ⟨⟩
  rw [downloadSequence_ok h₁, downloadSequence_ok h₂]
  simp only [hinj, hclk, hparams]

/-- Settles O29: the clamp's write-back changes no frame, and a second upload changes only what the answers change. -/
theorem repeatedUploadSendsSameFrame : Obligations.RepeatedUploadSendsSameFrame := by
  rintro s t u ⟨⟩ ⟨⟩
  constructor
  · have hframe : uploadFrame (uploadSequence s).params (uploadSequence s).cfg = uploadFrame s.params s.cfg :=
      uploadFrame_clampWriteback s.params s.cfg
    rw [uploadSequence_trace, hframe, uploadSequence_trace, List.append_assoc]
    rfl
  · intro hanswer
    refine (uploadSequence_again s).trans ?_
    rw [← hanswer]
    rfl

/-- Settles O17: the held command and the upload after it run the upload sequence from the same configuration as the
command that is not held. -/
theorem heldThenUploadIsUnheld : Obligations.HeldThenUploadIsUnheld := by
  intro i j s t u hi hheld hfree hfunc harg hpass hexec hupload
  obtain ⟨hrsv, hval⟩ := checks_of_refusalCode_none hpass
  have hz := Instr.reservedZero_of_isConfig hi
  rw [hrsv] at hz
  obtain ⟨hj, hjz, hjval, hjcfg⟩ := Instr.agree_of_func_arg hfunc harg
  rw [exec_config_done hi hz hval, hheld] at hexec
  rw [exec_config_done (hj.trans hi) (hjz.trans hz) (hjval.trans hval), hfree, hjcfg]
  cases hexec
  exact hupload

end Sys2Proof.Machine
end

section
/-! SUPPORT. What a command that passes its checks reports of its transport request (60_exceptions.md R201). -/

namespace Sys2Proof.Machine

/-- LAST_CODE of a command that passed its checks tells whether its request, if it made one, failed (60_exceptions.md
R201). -/
def ReportsRequest (s t : State) : Prop :=
  (t.lastCode = 0#3 ∧ (∀ a f, t.trace ≠ s.trace ++ [.write a f .fail]) ∧ ∀ a, t.trace ≠ s.trace ++ [.read a .fail]) ∨
    (t.lastCode = 5#3 ∧
      ((∃ f, t.trace = s.trace ++ [.write 0x60#7 f .fail]) ∨ t.trace = s.trace ++ [.read 0x60#7 .fail]))

theorem reportsRequest_of_no_request {s t : State} (hcode : t.lastCode = 0#3) (htrace : t.trace = s.trace) :
    ReportsRequest s t :=
  .inl ⟨hcode, by simp [htrace], by simp [htrace]⟩

theorem reportsRequest_of_write {s t : State} {f : Frame} {a : WriteAnswer} (hcode : t.lastCode = writeCode a)
    (htrace : t.trace = s.trace ++ [.write 0x60#7 f a]) : ReportsRequest s t := by
  cases a with
  | ok => exact .inl ⟨hcode, by simp [htrace], by simp [htrace]⟩
  | fail => exact .inr ⟨hcode, .inl ⟨f, htrace⟩⟩

theorem reportsRequest_of_download (s : State) : ReportsRequest s (downloadSequence s) := by
  cases h : nextReadAnswer s.env with
  | ok f =>
    rw [downloadSequence_ok h]
    exact .inl ⟨rfl, by simp, by simp⟩
  | fail =>
    rw [downloadSequence_fail h]
    exact .inr ⟨rfl, .inr rfl⟩

/-- A command that passes its checks leaves ERR and ERR_FIRST alone and reports its request. -/
theorem Meaning.completes {i : Instr} {m : State → State} (hm : Meaning i m) (hpass : refusalCode i = none) (s : State) :
    (m s).err = s.err ∧ (m s).errFirst = s.errFirst ∧ ReportsRequest s (m s) := by
  cases hm with
  | refusal c hc => simp [hpass] at hc
  | finish hold =>
    cases hold with
    | true => exact ⟨rfl, rfl, reportsRequest_of_no_request rfl rfl⟩
    | false => exact ⟨rfl, rfl, reportsRequest_of_write rfl (uploadSequence_trace _)⟩
  | download =>
    obtain ⟨herr, hfirst⟩ := downloadSequence_keeps_err s
    exact ⟨herr, hfirst, reportsRequest_of_download s⟩
  | convert => exact ⟨rfl, rfl, reportsRequest_of_no_request rfl rfl⟩

end Sys2Proof.Machine
end

section
/-! The claims about every command and about reset: what they report, what they write and what they read (10_state.md,
20_memory.md, 60_exceptions.md, 70_reset_and_hazards.md). -/

namespace Sys2Proof.Machine

/-- Settles O8: the meaning of a command that passes its checks is no refusal. -/
theorem passedChecksComplete : Obligations.PassedChecksComplete := by
  intro i s hpass
  obtain ⟨m, hm, hexec⟩ := exec_meaning i
  exact ⟨m s, hexec s, hm.completes hpass s⟩

/-- Settles O25: of the effects of a command only an upload and a download add a request. -/
theorem transportOnlyByTransfers : Obligations.TransportOnlyByTransfers := by
  intro i s t hexec
  cases exec_next hexec with
  | refusal c _ h => exact .inl (h ▸ rfl)
  | nop _ h => exact .inl (h ▸ rfl)
  | config c hi h =>
    obtain ⟨-, rfl⟩ | ⟨hfree, hup⟩ := h.cases
    · exact .inl rfl
    · exact .inr (.inl ⟨_, hup.sends_sound.1, .inr ⟨hi, hfree⟩⟩)
  | upload hi h => exact .inr (.inl ⟨_, h.sends_sound.1, .inl hi⟩)
  | download hi h => exact .inr (.inr ⟨_, h ▸ downloadSequence_trace s, hi⟩)
  | toDivisor _ r _ h => exact .inl (h ▸ rfl)
  | fromDivisor _ r _ h => exact .inl (h ▸ rfl)

/-- Settles O26: the frame of each effect. -/
theorem registersHaveTheirWriters : Obligations.RegistersHaveTheirWriters := by
  intro i s t hexec
  cases exec_next hexec with
  | refusal c _ h =>
    subst h
    simp [refused]
  | nop _ h =>
    subst h
    simp
  | config c hi h =>
    obtain ⟨hheld, rfl⟩ | ⟨hfree, hup⟩ := h.cases
    · simp [hi]
    · obtain ⟨-, hvalid, hstatus, hresult, hinputs⟩ := hup.frame
      simp [hi, hfree, hvalid, hstatus, hresult, hinputs]
  | upload hi h =>
    subst hi
    obtain ⟨⟨hfreq, hcfg⟩, hvalid, hstatus, hresult, hinputs⟩ := h.frame
    simpa [Instr.isConfig, hfreq, hvalid, hstatus, hresult, hinputs] using hcfg
  | download hi h =>
    subst hi
    obtain ⟨st, valid, trace, env, code, heq, hvalid⟩ := downloadSequence_frame s
    rw [h, heq]
    simpa using hvalid
  | toDivisor hi r _ h =>
    obtain ⟨bd, v, inj, f, rfl⟩ := hi
    subst h
    simp
  | fromDivisor hi r _ h =>
    obtain ⟨v, inj, d, rfl⟩ := hi
    subst h
    simp

/-- Settles O27: each meaning takes what it writes from the configuration, the parameters and the environment. -/
theorem commandsReadOnlyConfiguration : Obligations.CommandsReadOnlyConfiguration := by
  intro i s₁ s₂ t₁ t₂ hcfg hparams henv h₁ h₂
  obtain ⟨m, hm, hexec⟩ := exec_meaning i
  obtain rfl := Host.Outcome.next.inj ((hexec s₁).symm.trans h₁)
  obtain rfl := Host.Outcome.next.inj ((hexec s₂).symm.trans h₂)
  cases hm with
  | refusal c =>
    exact ⟨hcfg, henv, rfl, ⟨[], by simp [refused], by simp [refused]⟩, .inl ⟨rfl, rfl, rfl, rfl, rfl, rfl⟩,
      .inl ⟨rfl, rfl, rfl, rfl⟩, .inl ⟨rfl, rfl, rfl, rfl⟩⟩
  | finish hold =>
    cases hold with
    | true =>
      exact ⟨congrArg i.configure hcfg, henv, rfl, ⟨[], by simp [finishConfig], by simp [finishConfig]⟩,
        .inl ⟨rfl, rfl, rfl, rfl, rfl, rfl⟩, .inl ⟨rfl, rfl, rfl, rfl⟩, .inl ⟨rfl, rfl, rfl, rfl⟩⟩
    | false =>
      refine ⟨?_, ?_, ?_, ⟨_, uploadSequence_trace _, ?_⟩, .inr ⟨?_, ?_, rfl⟩, .inl ⟨rfl, rfl, rfl, rfl⟩,
        .inl ⟨rfl, rfl, rfl, rfl⟩⟩
      all_goals simp [finishConfig, uploadSequence, hcfg, hparams, henv, Config.busAddr]
  | download =>
    cases ha : nextReadAnswer s₂.env with
    | ok f =>
      rw [downloadSequence_ok ha, downloadSequence_ok (henv ▸ ha)]
      refine ⟨hcfg, ?_, rfl, ⟨_, rfl, rfl⟩, .inl ⟨rfl, rfl, rfl, rfl, rfl, rfl⟩, .inr ⟨?_, rfl⟩,
        .inl ⟨rfl, rfl, rfl, rfl⟩⟩
      all_goals simp [hcfg, hparams, henv]
    | fail =>
      rw [downloadSequence_fail ha, downloadSequence_fail (henv ▸ ha)]
      exact ⟨hcfg, congrArg afterReadAnswer henv, rfl, ⟨_, rfl, rfl⟩, .inl ⟨rfl, rfl, rfl, rfl, rfl, rfl⟩,
        .inl ⟨rfl, rfl, rfl, rfl⟩, .inl ⟨rfl, rfl, rfl, rfl⟩⟩
  | convert v =>
    exact ⟨hcfg, henv, rfl, ⟨[], by simp, by simp⟩, .inl ⟨rfl, rfl, rfl, rfl, rfl, rfl⟩, .inl ⟨rfl, rfl, rfl, rfl⟩,
      .inr ⟨by simp [hparams], rfl⟩⟩

/-- Settles O30: the command writes what its configuration says, and the answer reaches only what reports it. -/
theorem transportFailureKeepsWrites : Obligations.TransportFailureKeepsWrites := by
  intro i s t₁ t₂ e₁ e₂ hi h₁ h₂
  cases hcode : refusalCode i with
  | some c =>
    have hrefused := fun s => failedCheckRefusesPrecisely.2 i s c hcode
    rw [hrefused] at h₁ h₂
    cases h₁
    cases h₂
    exact ⟨rfl, nofun⟩
  | none =>
    rw [exec_finish hi hcode] at h₁ h₂
    cases h₁
    cases h₂
    cases i.hold with
    | true => exact ⟨rfl, fun _ => ⟨rfl, rfl⟩⟩
    | false => exact ⟨rfl, fun _ => ⟨rfl, rfl⟩⟩

/-- Settles O31: the upload and the download take the first settled answer, and a command that takes one adds its request
to the trace. -/
theorem answersAreTakenInOrder : Obligations.AnswersAreTakenInOrder := by
  refine fun s => ⟨fun i a rest hi hpass hlist => ?_, fun a rest hlist => ?_, fun i t hexec htrace => ?_⟩
  · obtain ⟨hnext, hafter⟩ := writeAnswer_of_settled hlist
    have hfree : i.hold = false := by
      obtain rfl | ⟨-, hfree⟩ := hi
      · rfl
      · exact hfree
    have hexec := exec_finish (hi.imp_right And.left) hpass s
    rw [hfree] at hexec
    refine ⟨_, hexec, ?_, hafter, ?_⟩
    · rw [← hnext]
      rfl
    · exact (congrArg writeCode hnext).trans (by cases a <;> rfl)
  · obtain ⟨hnext, hafter⟩ := readAnswer_of_settled hlist
    refine ⟨downloadSequence s, rfl, ?_⟩
    cases a with
    | ok f => rw [downloadSequence_ok hnext]; exact ⟨rfl, hafter, rfl⟩
    | fail => rw [downloadSequence_fail hnext]; exact ⟨rfl, hafter, rfl⟩
  · obtain ⟨m, hm, hrun⟩ := exec_meaning i
    obtain rfl := Host.Outcome.next.inj ((hrun s).symm.trans hexec)
    cases hm with
    | refusal => rfl
    | finish hold =>
      cases hold with
      | true => rfl
      | false => simp [finishConfig, uploadSequence_trace] at htrace
    | download => simp [downloadSequence_trace] at htrace
    | convert => rfl

/-- Settles O32: the fields of the reset state, which the reset event and State.reset share. -/
theorem resetSetsSpecifiedValues : Obligations.ResetSetsSpecifiedValues := by
  refine ⟨fun s => ⟨applyReset s, rfl, applyReset_cfg s, applyReset_wfValid s, applyReset_statusValid s,
    applyReset_resultValid s, applyReset_err s, applyReset_errFirst s, applyReset_lastCode s, applyReset_trace s,
    applyReset_params s, applyReset_env s, ?_⟩, rfl, rfl, rfl, by decide, by decide⟩
  exact ⟨rfl, rfl, rfl, rfl, rfl, rfl, rfl⟩ -- the masks of registers 2 to 8, the valid bits being 0

end Sys2Proof.Machine
end

section
/-! SUPPORT. The bits of the bit-field primitives (41_codec.md R140). -/

namespace Sys2Proof.Machine

/-- The ones of a field's mask stand at its positions. -/
theorem getLsbD_fieldMask (hi lo : Nat) {k : Nat} (hk : k < 8) :
    (fieldMask hi lo).getLsbD k = decide (lo ≤ k ∧ k - lo ≤ hi - lo) := by
  rw [fieldMask, BitVec.getLsbD_ofNat, Nat.testBit_mul_two_pow, Nat.testBit_two_pow_sub_one]
  simp [hk]

/-- A value put at `lo`, cut to the field's width. -/
theorem getLsbD_fieldValue (hi lo v : Nat) {k : Nat} (hk : k < 8) :
    (BitVec.ofNat 8 (v % 2 ^ (hi - lo + 1)) <<< lo).getLsbD k =
      (decide (lo ≤ k ∧ k - lo ≤ hi - lo) && v.testBit (k - lo)) := by
  have hpos : k - lo < 8 := by omega
  rw [BitVec.getLsbD_shiftLeft, BitVec.getLsbD_ofNat, Nat.testBit_mod_two_pow]
  by_cases hlo : lo ≤ k
  · simp [hk, hpos, hlo, Nat.not_lt.mpr hlo]
  · simp [hlo, Nat.not_le.mp hlo]

/-- `set_field` writes the value's bits at the field's positions and keeps the others (41_codec.md R140). -/
theorem getLsbD_setField (x : Byte) {hi lo : Nat} (v : Nat) (hle : lo ≤ hi) {k : Nat} (hk : k < 8) :
    (setField x hi lo v).getLsbD k = if lo ≤ k ∧ k ≤ hi then v.testBit (k - lo) else x.getLsbD k := by
  have hpos : (lo ≤ k ∧ k - lo ≤ hi - lo) ↔ (lo ≤ k ∧ k ≤ hi) := by omega
  rw [setField, BitVec.getLsbD_or, BitVec.getLsbD_and, BitVec.getLsbD_not, getLsbD_fieldMask hi lo hk,
    getLsbD_fieldValue hi lo v hk]
  simp only [hpos]
  split
  case isTrue hin => simp [hin]
  case isFalse hout => simp [hout, hk]

/-- `set_bit` writes one bit (41_codec.md R140). -/
theorem getLsbD_setBit (x : Byte) (i : Nat) (v : Bool) {k : Nat} (hk : k < 8) :
    (setBit x i v).getLsbD k = if k = i then v else x.getLsbD k := by
  have hpos : (i ≤ k ∧ k ≤ i) ↔ k = i := by omega
  rw [setBit, getLsbD_setField x _ le_rfl hk]
  simp only [hpos]
  split
  case isTrue h => cases v <;> simp [h]
  case isFalse => rfl

/-- `get_field` reads the field's bits (41_codec.md R140). -/
theorem testBit_getField (x : Byte) (hi lo k : Nat) :
    (getField x hi lo).testBit k = (decide (k ≤ hi - lo) && x.getLsbD (lo + k)) := by
  rw [getField, Nat.testBit_mod_two_pow, Nat.testBit_div_two_pow, BitVec.getLsbD, Nat.add_comm k lo]
  simp only [Nat.lt_succ_iff]

/-- `get_field` gives back what `set_field` wrote, cut to the field's width. -/
theorem getField_setField (x : Byte) {hi lo : Nat} (v : Nat) (hle : lo ≤ hi) (hhi : hi ≤ 7) :
    getField (setField x hi lo v) hi lo = v % 2 ^ (hi - lo + 1) := by
  refine Nat.eq_of_testBit_eq fun k => ?_
  rw [testBit_getField, Nat.testBit_mod_two_pow]
  simp only [Nat.lt_succ_iff]
  by_cases hk : k ≤ hi - lo
  · rw [getLsbD_setField x v hle (by omega), if_pos (by omega), Nat.add_sub_cancel_left]
  · simp [hk]

/-! ## The packed divisor as a number (41_codec.md R141) -/

theorem packHi_natCast {d : Nat} (hd : d < 16384) : packHi d = BitVec.ofNat 6 (d / 256) := by
  have hbits : (divisorBits d).toNat = d := by exact_mod_cast divisorBits_toNat (d := d) (by omega) (by omega)
  refine BitVec.eq_of_toNat_eq ?_
  rw [packHi, BitVec.extractLsb'_toNat, hbits, BitVec.toNat_ofNat, Nat.shiftRight_eq_div_pow]

theorem packLo_natCast {d : Nat} (hd : d < 16384) : packLo d = BitVec.ofNat 8 d := by
  have hbits : (divisorBits d).toNat = d := by exact_mod_cast divisorBits_toNat (d := d) (by omega) (by omega)
  refine BitVec.eq_of_toNat_eq ?_
  rw [packLo, BitVec.extractLsb'_toNat, hbits, BitVec.toNat_ofNat, Nat.shiftRight_zero]

end Sys2Proof.Machine
end

section
/-! The claims about the bit fields (41_codec.md R140). -/

namespace Sys2Proof.Machine

/-- Settles O43: what each primitive does to each bit. -/
theorem bitFieldsDoNotSpill : Obligations.BitFieldsDoNotSpill := by
  refine ⟨fun x hi lo v hle hhi => ⟨getField_setField x v hle hhi, fun k hk hout => ?_, testBit_getField x hi lo⟩,
    fun x i k v _ hk => getLsbD_setBit x i v (Nat.lt_succ_of_le hk)⟩
  rw [getBit, getLsbD_setField x v hle hk, if_neg (by omega)]
  rfl

/-- Settles O46: the bytes agree bit by bit, the divisor's two parts being the quotient and the remainder by 256. -/
theorem encodeIsSetFieldChain : Obligations.EncodeIsSetFieldChain := by
  intro p c d hd
  have hhi := packHi_natCast hd
  have hlo := packLo_natCast hd
  rw [encodeFrame, hhi, hlo, Frame.mk.injEq]
  refine ⟨?_, ?_, ?_, ?_, ?_⟩
  all_goals
    refine BitVec.eq_of_getLsbD_eq fun k hk => ?_
    simp (disch := omega) only [getLsbD_setBit, getLsbD_setField, BitVec.getLsbD_append, BitVec.getLsbD_ofNat,
      BitVec.testBit_toNat]
    interval_cases k <;> simp

end Sys2Proof.Machine
end
